-- ==== Sys2Proof/Word.lean ====
section
/-! DEFINITION. The word types of the block (spec/00_scope.md R14) and nothing else. -/

namespace Sys2Proof

/-- One data byte, u8 (R14). -/
abbrev Byte := BitVec 8

/-- A 16-bit word: a bitfield, a presence mask, an M or G code (R14, R39, R40). -/
abbrev Half := BitVec 16

/-- A 32-bit word: a line number, an s32 value, or the 32 bits of a float (R14, R17). -/
abbrev Word := BitVec 32

end Sys2Proof
end

