-- ==== Sys2Proof/Syntax.lean ====
section
/-! DEFINITION. The instructions: one constructor for each row of spec/opcode_table.json, and the words the port
carries. The table has seven formats (R103), and a word means nothing without its format, so a port word is a pair
(notes/assumptions/4.md). -/

namespace Sys2Proof

/-- The rows of spec/opcode_table.json, in the table's order. The eight transactions of R80 come first: they are what
the block's environment presents. The other rows name the parts a BYTE transaction is made of. -/
inductive Instr where
  /-- IDLE (R310): nothing is offered. -/
  | idle
  /-- BYTE(b, src) (R260): offer the data byte `b` from source `src` (false: primary, true: any other, R82). -/
  | byte (b : Byte) (src : Bool)
  /-- PEEK (R292): the consumer asks for the oldest queued record. -/
  | peek
  /-- POP (R293, R294): the consumer removes the record it peeked. -/
  | pop
  /-- RESET (R311): every register but acc and the slots returns to its reset value. -/
  | reset
  /-- CFG_WRITE(v) (R312): set cfgChecksumMandatory. -/
  | cfgWrite (v : Bool)
  /-- STATUS (R313): read the four status words. -/
  | status
  /-- The reserved op 7 (R84, R314). -/
  | rsvd7
  /-- First byte of a command with bit 7 set: a binary frame starts (R263). -/
  | firstBinary (b : Byte) (src : Bool)
  /-- First byte of a command with bit 7 clear: an ASCII line starts (R263). -/
  | firstAscii (b : Byte) (src : Bool)
  /-- bitfield-1 bit 12 clear: the V1 header (R161). -/
  | bf1V1
  /-- bitfield-1 bit 12 set: the V2 header, with bitfield-2 and the text-length byte (R161 to R163). -/
  | bf1V2
  /-- bitfield-1 bit 7: the binary-framing marker (R161). -/
  | bf1Mark
  /-- bitfield-1 bit 0: line number (R164). -/
  | bf1N
  /-- bitfield-1 bit 1: M code (R165). -/
  | bf1M
  /-- bitfield-1 bit 2: G code (R166). -/
  | bf1G
  /-- bitfield-1 bit 3: X (R167). -/
  | bf1X
  /-- bitfield-1 bit 4: Y (R168). -/
  | bf1Y
  /-- bitfield-1 bit 5: Z (R169). -/
  | bf1Z
  /-- bitfield-1 bit 6: E (R170). -/
  | bf1E
  /-- bitfield-1 bit 8: F (R171). -/
  | bf1F
  /-- bitfield-1 bit 9: tool index (R172). -/
  | bf1T
  /-- bitfield-1 bit 10: S (R173). -/
  | bf1S
  /-- bitfield-1 bit 11: P (R174). -/
  | bf1P
  /-- bitfield-1 bit 13: reserved extension (R181). -/
  | bf1Ext
  /-- bitfield-1 bit 14: internal-command marker (R181). -/
  | bf1Internal
  /-- bitfield-1 bit 15 with bit 12 clear: the V1 text (R178). -/
  | bf1TextV1
  /-- bitfield-1 bits 15 and 12: the V2 text (R179). -/
  | bf1TextV2
  /-- bitfield-2 bit 0: I (R175). -/
  | bf2I
  /-- bitfield-2 bit 1: J (R176). -/
  | bf2J
  /-- bitfield-2 bit 2: R (R177). -/
  | bf2R
  /-- bitfield-2 bits 15:3: reserved (R181). -/
  | bf2Rsv
  /-- ASCII token M (R196). -/
  | tokM
  /-- ASCII token N (R197). -/
  | tokN
  /-- ASCII token G (R198). -/
  | tokG
  /-- ASCII token X (R199). -/
  | tokX
  /-- ASCII token Y (R200). -/
  | tokY
  /-- ASCII token Z (R201). -/
  | tokZ
  /-- ASCII token E (R202). -/
  | tokE
  /-- ASCII token F (R203). -/
  | tokF
  /-- ASCII token T (R204). -/
  | tokT
  /-- ASCII token S (R205). -/
  | tokS
  /-- ASCII token P (R206). -/
  | tokP
  /-- ASCII token I (R207). -/
  | tokI
  /-- ASCII token J (R208). -/
  | tokJ
  /-- ASCII token R (R209). -/
  | tokR
  /-- NUL in an ASCII line (R268, R269). -/
  | termNul
  /-- LF in an ASCII line (R268, R269). -/
  | termLf
  /-- CR in an ASCII line (R268, R269). -/
  | termCr
  /-- ':' in an ASCII line (R268, R269). -/
  | termColon
  /-- ';' in an ASCII line (R273). -/
  | comment
  /-- The first '*' of a line begins the checksum suffix (R96, R146). -/
  | checksumStar
  /-- M23 text capture, one word (R210). -/
  | m23
  /-- M28 text capture, one word (R210). -/
  | m28
  /-- M29 text capture, one word (R210). -/
  | m29
  /-- M30 text capture, one word (R210). -/
  | m30
  /-- M32 text capture, one word (R210). -/
  | m32
  /-- M117 text capture, spaces kept (R211). -/
  | m117
  /-- M3117 text capture, spaces kept (R211). -/
  | m3117
  /-- M110 line-number reset (R232). -/
  | m110
deriving DecidableEq, Repr

/-- The seven formats of the opcode table (R103). A bitfield-1 word is read in two ways there: for the wire form of its
frame, and for its bits (notes/assumptions/25.md). -/
inductive Space where
  /-- The 12-bit transaction word of R81. -/
  | transaction
  /-- The first byte of a command (R85), with the model's source bit above it (notes/assumptions/6.md). -/
  | firstByte
  /-- The 16-bit bitfield-1, read for the wire form of its frame: V1 or V2 (R85, R103). -/
  | wireForm
  /-- The 16-bit bitfield-1, read for its bits (R86). -/
  | bitfield1
  /-- The 16-bit bitfield-2 (R87). -/
  | bitfield2
  /-- The letter of an ASCII token (R95). -/
  | asciiToken
  /-- A structural byte of an ASCII line (R93, R94, R96). -/
  | asciiStruct
  /-- The 16-bit M value (R97, R232). -/
  | mcode
deriving DecidableEq, Repr

/-- How many bits a word of the format has (R81, R85 to R87, R95, R97). The first byte has one more, its source. -/
def Space.width : Space → Nat
  | .transaction => 12
  | .firstByte => 9
  | .wireForm => 16
  | .bitfield1 => 16
  | .bitfield2 => 16
  | .asciiToken => 8
  | .asciiStruct => 8
  | .mcode => 16

/-- One word at the port, with its format. -/
structure PortWord where
  /-- Which format of the table the word belongs to. -/
  space : Space
  /-- The word itself. -/
  word : BitVec 16
deriving DecidableEq, Repr

/-- Why a port word names no instruction. -/
inductive DecodeError where
  /-- A bit is set above the format's width. -/
  | tooWide (space : Space)
  /-- No row of the format matches the word. -/
  | noRow (space : Space)
deriving DecidableEq, Repr

end Sys2Proof
end

