-- ==== Sys2Proof/WellFormed.lean ====
section
/-! DEFINITION. When a term of Instr is an instruction: the first byte of a command agrees with the wire form its row
names (R85, R263). Every other row admits every operand value. -/

namespace Sys2Proof

/-- The check, one arm per constructor. -/
def Instr.wf : Instr → Bool
  | .idle => true
  | .byte _ _ => true
  | .peek => true
  | .pop => true
  | .reset => true
  | .cfgWrite _ => true
  | .status => true
  | .rsvd7 => true
  | .firstBinary b _ => b.getLsbD 7
  | .firstAscii b _ => !b.getLsbD 7
  | .bf1V1 => true
  | .bf1V2 => true
  | .bf1Mark => true
  | .bf1N => true
  | .bf1M => true
  | .bf1G => true
  | .bf1X => true
  | .bf1Y => true
  | .bf1Z => true
  | .bf1E => true
  | .bf1F => true
  | .bf1T => true
  | .bf1S => true
  | .bf1P => true
  | .bf1Ext => true
  | .bf1Internal => true
  | .bf1TextV1 => true
  | .bf1TextV2 => true
  | .bf2I => true
  | .bf2J => true
  | .bf2R => true
  | .bf2Rsv => true
  | .tokM => true
  | .tokN => true
  | .tokG => true
  | .tokX => true
  | .tokY => true
  | .tokZ => true
  | .tokE => true
  | .tokF => true
  | .tokT => true
  | .tokS => true
  | .tokP => true
  | .tokI => true
  | .tokJ => true
  | .tokR => true
  | .termNul => true
  | .termLf => true
  | .termCr => true
  | .termColon => true
  | .comment => true
  | .checksumStar => true
  | .m23 => true
  | .m28 => true
  | .m29 => true
  | .m30 => true
  | .m32 => true
  | .m117 => true
  | .m3117 => true
  | .m110 => true

end Sys2Proof
end

