-- ==== Sys2Proof/Decode.lean ====
section
/-! DEFINITION. The decoder of port words and the encoder beside it, both written from spec/opcode_table.json and
spec/30_encoding.md. A transaction word is read as R81 and R310 say; a word of another format is read as the first
row of that format that it matches (its bits under the row's mask equal the row's match), a bitfield-1 word either for the
wire form of its frame or for its bits (notes/assumptions/25.md). -/

namespace Sys2Proof

/-- One row of the opcode table: the instruction of a word whose bits under `mask` are `pattern`. -/
structure Row where
  /-- Which bits the row fixes. -/
  mask : Half
  /-- What they are. -/
  pattern : Half
  /-- The row's instruction. -/
  instr : Instr
deriving DecidableEq, Repr

/-- Whether the word has the bits the row fixes. -/
def Row.matchesWord (r : Row) (w : Half) : Bool := (w &&& r.mask) == r.pattern

/-- The wire forms of a binary frame: V1 and V2, by bits 7 and 12 of bitfield-1, "mask 0x1080 for V1 and V2" (R103). A
word with bit 7 clear is neither: a frame always has that bit (R99). -/
def wireFormRows : List Row := [⟨0x1080, 0x0080, .bf1V1⟩, ⟨0x1080, 0x1080, .bf1V2⟩]

/-- The bitfield-1 rows (R86): fields in wire order, then text, then the bits that carry no field. The last two are the
table's own V1 and V2 rows, whose mask leaves bit 7 open (notes/assumptions/25.md). -/
def bitfield1Rows : List Row :=
  [⟨0x0001, 0x0001, .bf1N⟩, ⟨0x0002, 0x0002, .bf1M⟩, ⟨0x0004, 0x0004, .bf1G⟩,
   ⟨0x0008, 0x0008, .bf1X⟩, ⟨0x0010, 0x0010, .bf1Y⟩, ⟨0x0020, 0x0020, .bf1Z⟩,
   ⟨0x0040, 0x0040, .bf1E⟩, ⟨0x0100, 0x0100, .bf1F⟩, ⟨0x0200, 0x0200, .bf1T⟩,
   ⟨0x0400, 0x0400, .bf1S⟩, ⟨0x0800, 0x0800, .bf1P⟩, ⟨0x9000, 0x8000, .bf1TextV1⟩,
   ⟨0x9000, 0x9000, .bf1TextV2⟩, ⟨0x2000, 0x2000, .bf1Ext⟩, ⟨0x4000, 0x4000, .bf1Internal⟩,
   ⟨0x0080, 0x0080, .bf1Mark⟩, ⟨0x1000, 0x1000, .bf1V2⟩, ⟨0x1000, 0x0000, .bf1V1⟩]

/-- The bitfield-2 rows (R87). The reserved row fixes no bit. -/
def bitfield2Rows : List Row :=
  [⟨0x0001, 0x0001, .bf2I⟩, ⟨0x0002, 0x0002, .bf2J⟩, ⟨0x0004, 0x0004, .bf2R⟩,
   ⟨0x0000, 0x0000, .bf2Rsv⟩]

/-- The ASCII token letters (R95, with the codes of R16). -/
def asciiTokenRows : List Row :=
  [⟨0x00FF, 0x004D, .tokM⟩, ⟨0x00FF, 0x004E, .tokN⟩, ⟨0x00FF, 0x0047, .tokG⟩,
   ⟨0x00FF, 0x0058, .tokX⟩, ⟨0x00FF, 0x0059, .tokY⟩, ⟨0x00FF, 0x005A, .tokZ⟩,
   ⟨0x00FF, 0x0045, .tokE⟩, ⟨0x00FF, 0x0046, .tokF⟩, ⟨0x00FF, 0x0054, .tokT⟩,
   ⟨0x00FF, 0x0053, .tokS⟩, ⟨0x00FF, 0x0050, .tokP⟩, ⟨0x00FF, 0x0049, .tokI⟩,
   ⟨0x00FF, 0x004A, .tokJ⟩, ⟨0x00FF, 0x0052, .tokR⟩]

/-- The structural bytes of an ASCII line (R93, R94, R96). -/
def asciiStructRows : List Row :=
  [⟨0x00FF, 0x0000, .termNul⟩, ⟨0x00FF, 0x000A, .termLf⟩, ⟨0x00FF, 0x000D, .termCr⟩,
   ⟨0x00FF, 0x003A, .termColon⟩, ⟨0x00FF, 0x003B, .comment⟩, ⟨0x00FF, 0x002A, .checksumStar⟩]

/-- The M codes with a meaning of their own (R97, R232). -/
def mcodeRows : List Row :=
  [⟨0xFFFF, 0x0017, .m23⟩, ⟨0xFFFF, 0x001C, .m28⟩, ⟨0xFFFF, 0x001D, .m29⟩,
   ⟨0xFFFF, 0x001E, .m30⟩, ⟨0xFFFF, 0x0020, .m32⟩, ⟨0xFFFF, 0x0075, .m117⟩,
   ⟨0xFFFF, 0x0C2D, .m3117⟩, ⟨0xFFFF, 0x006E, .m110⟩]

/-- The source tag of a transaction word: tw[3] (R81, R82). -/
def twSrc (w : Half) : Bool := w.getLsbD 3

/-- The data of a transaction word: tw[11:4] (R81). -/
def twData (w : Half) : Byte := w.extractLsb' 4 8

/-- The transaction a 12-bit word presents: op is tw[2:0] (R81, R310), the fields an op does not use are ignored
(R315), op 7 is the reserved one (R314). -/
def decodeTransaction (w : Half) : Instr :=
  match (w.extractLsb' 0 3).toNat with
  | 0 => .idle
  | 1 => .byte (twData w) (twSrc w)
  | 2 => .peek
  | 3 => .pop
  | 4 => .reset
  | 5 => .cfgWrite ((twData w).getLsbD 0)
  | 6 => .status
  | _ => .rsvd7

/-- The first byte of a command: its bit 7 decides the wire form (R85). The model puts the source above it, in bit 8
(notes/assumptions/6.md). -/
def decodeFirstByte (w : Half) : Instr :=
  if w.getLsbD 7 then .firstBinary (w.extractLsb' 0 8) (w.getLsbD 8)
  else .firstAscii (w.extractLsb' 0 8) (w.getLsbD 8)

/-- The first of the rows that the word matches. -/
def findRow (rows : List Row) (w : Half) : Option Instr := (rows.find? (·.matchesWord w)).map (·.instr)

/-- What a word of the format names, its bits above the format's width not looked at. -/
def decodeIn (sp : Space) (w : Half) : Option Instr :=
  match sp with
  | .transaction => some (decodeTransaction w)
  | .firstByte => some (decodeFirstByte w)
  | .wireForm => findRow wireFormRows w
  | .bitfield1 => findRow bitfield1Rows w
  | .bitfield2 => findRow bitfield2Rows w
  | .asciiToken => findRow asciiTokenRows w
  | .asciiStruct => findRow asciiStructRows w
  | .mcode => findRow mcodeRows w

/-- The decoder: total on every port word, rejecting by name. -/
def decode (p : PortWord) : Except DecodeError Instr :=
  if p.word.toNat < 2 ^ p.space.width then
    match decodeIn p.space p.word with
    | some i => .ok i
    | none => .error (.noRow p.space)
  else .error (.tooWide p.space)

/-- A transaction word from its three fields (R81). -/
def twWord (op : BitVec 3) (src : Bool) (data : Byte) : Half :=
  (0 : BitVec 4) ++ data ++ BitVec.ofBool src ++ op

/-- A first-byte word from the byte and its source (notes/assumptions/6.md). -/
def firstWord (b : Byte) (src : Bool) : Half := (0 : BitVec 7) ++ BitVec.ofBool src ++ b

/-- The encoder: the port word of an instruction. Fields an op ignores are written as 0 (R315). -/
def encode : Instr → PortWord
  | .idle => ⟨.transaction, twWord 0 false 0⟩
  | .byte b src => ⟨.transaction, twWord 1 src b⟩
  | .peek => ⟨.transaction, twWord 2 false 0⟩
  | .pop => ⟨.transaction, twWord 3 false 0⟩
  | .reset => ⟨.transaction, twWord 4 false 0⟩
  | .cfgWrite v => ⟨.transaction, twWord 5 false (if v then 1 else 0)⟩
  | .status => ⟨.transaction, twWord 6 false 0⟩
  | .rsvd7 => ⟨.transaction, twWord 7 false 0⟩
  | .firstBinary b src => ⟨.firstByte, firstWord b src⟩
  | .firstAscii b src => ⟨.firstByte, firstWord b src⟩
  | .bf1V1 => ⟨.wireForm, 0x0080⟩
  | .bf1V2 => ⟨.wireForm, 0x1080⟩
  | .bf1Mark => ⟨.bitfield1, 0x0080⟩
  | .bf1N => ⟨.bitfield1, 0x0001⟩
  | .bf1M => ⟨.bitfield1, 0x0002⟩
  | .bf1G => ⟨.bitfield1, 0x0004⟩
  | .bf1X => ⟨.bitfield1, 0x0008⟩
  | .bf1Y => ⟨.bitfield1, 0x0010⟩
  | .bf1Z => ⟨.bitfield1, 0x0020⟩
  | .bf1E => ⟨.bitfield1, 0x0040⟩
  | .bf1F => ⟨.bitfield1, 0x0100⟩
  | .bf1T => ⟨.bitfield1, 0x0200⟩
  | .bf1S => ⟨.bitfield1, 0x0400⟩
  | .bf1P => ⟨.bitfield1, 0x0800⟩
  | .bf1Ext => ⟨.bitfield1, 0x2000⟩
  | .bf1Internal => ⟨.bitfield1, 0x4000⟩
  | .bf1TextV1 => ⟨.bitfield1, 0x8000⟩
  | .bf1TextV2 => ⟨.bitfield1, 0x9000⟩
  | .bf2I => ⟨.bitfield2, 0x0001⟩
  | .bf2J => ⟨.bitfield2, 0x0002⟩
  | .bf2R => ⟨.bitfield2, 0x0004⟩
  | .bf2Rsv => ⟨.bitfield2, 0x0000⟩
  | .tokM => ⟨.asciiToken, 0x004D⟩
  | .tokN => ⟨.asciiToken, 0x004E⟩
  | .tokG => ⟨.asciiToken, 0x0047⟩
  | .tokX => ⟨.asciiToken, 0x0058⟩
  | .tokY => ⟨.asciiToken, 0x0059⟩
  | .tokZ => ⟨.asciiToken, 0x005A⟩
  | .tokE => ⟨.asciiToken, 0x0045⟩
  | .tokF => ⟨.asciiToken, 0x0046⟩
  | .tokT => ⟨.asciiToken, 0x0054⟩
  | .tokS => ⟨.asciiToken, 0x0053⟩
  | .tokP => ⟨.asciiToken, 0x0050⟩
  | .tokI => ⟨.asciiToken, 0x0049⟩
  | .tokJ => ⟨.asciiToken, 0x004A⟩
  | .tokR => ⟨.asciiToken, 0x0052⟩
  | .termNul => ⟨.asciiStruct, 0x0000⟩
  | .termLf => ⟨.asciiStruct, 0x000A⟩
  | .termCr => ⟨.asciiStruct, 0x000D⟩
  | .termColon => ⟨.asciiStruct, 0x003A⟩
  | .comment => ⟨.asciiStruct, 0x003B⟩
  | .checksumStar => ⟨.asciiStruct, 0x002A⟩
  | .m23 => ⟨.mcode, 0x0017⟩
  | .m28 => ⟨.mcode, 0x001C⟩
  | .m29 => ⟨.mcode, 0x001D⟩
  | .m30 => ⟨.mcode, 0x001E⟩
  | .m32 => ⟨.mcode, 0x0020⟩
  | .m117 => ⟨.mcode, 0x0075⟩
  | .m3117 => ⟨.mcode, 0x0C2D⟩
  | .m110 => ⟨.mcode, 0x006E⟩

/-- Which format a bare word of the table is read in, when nothing else says so: the formats overlap (0x0001 is BYTE,
BF1_N and BF2_I alike), so a choice is made (notes/assumptions/5.md). A word of at most one byte is a transaction
when it is below 8, else the ASCII byte the table names, else a first byte when its bit 7 is set, else a bitfield-1
word. A longer word is a transaction from 1 to 7, else an M code of the table, else a bitfield-1 word. -/
def tableSpace (nbits w : Nat) : Space :=
  let h : Half := BitVec.ofNat 16 w
  if nbits ≤ 8 then
    if w < 8 then .transaction
    else if (findRow asciiTokenRows h).isSome then .asciiToken
    else if (findRow asciiStructRows h).isSome then .asciiStruct
    else if h.getLsbD 7 then .firstByte
    else .bitfield1
  else
    if 0 < w ∧ w < 8 then .transaction
    else if (findRow mcodeRows h).isSome then .mcode
    else .bitfield1

/-- The port word a bare word of the table stands for (notes/assumptions/5.md). -/
def tableWord (nbits w : Nat) : PortWord := ⟨tableSpace nbits w, BitVec.ofNat 16 w⟩

/-- The instruction the decoder reads from a bare word of the table, its bits numbered as the table numbers them. -/
def decodeTableWord (nbits w : Nat) : Option Instr :=
  match decode (tableWord nbits w) with
  | .ok i => some i
  | .error _ => none

end Sys2Proof
end

