-- ==== Sys2Proof/Config.lean ====
section
/-! DEFINITION. The implementation parameters of spec/00_scope.md: the ones RD fixes (R7, R11, R12) as constants,
the ones it leaves open (R6, R8, R10) as a record of plain numbers that the state carries and no step changes
(notes/assumptions/9.md). -/

namespace Sys2Proof.Config

/-- `ERR_THRESHOLD` (R7): fixed by RD. -/
def errThreshold : Nat := 3

/-- `TEXT_CAP` (R11): the cap of the V2 text-size term. -/
def textCap : Nat := 80

/-- `TEXT_V1` (R11): the width of the V1 text field. -/
def textV1 : Nat := 16

/-- The largest binary frame (R9, R124). -/
def maxFrame : Nat := 133

/-- The M code of a line-number reset (R232). -/
def lineResetCode : Half := 110

/-- The members of `TEXT_M` whose text is one word (R12, R210). -/
def textMWord : List Half := [23, 28, 29, 30, 32]

/-- `TEXT_M_SPACES` (R12): the members whose text keeps embedded spaces (R211). -/
def textMSpaces : List Half := [117, 3117]

/-- `TEXT_M` (R12): the M codes that start ASCII text capture. -/
def textM : List Half := textMWord ++ textMSpaces

/-- The open parameters of one instance: `QCAP` (R6), `MAX_CMD_LEN` (R8), `SKIP_COUNT` (R10). The default values
are the spec's. -/
structure Params where
  /-- `QCAP` (R6): how many command slots the queue has. -/
  qcap : Nat := 2
  /-- `MAX_CMD_LEN` (R8): the most bytes an ASCII line may store. -/
  maxCmdLen : Nat := 96
  /-- `SKIP_COUNT` (R10): what a resend request loads into the skip counter. -/
  skipCount : Nat := 30
deriving DecidableEq, Repr

/-- `ACC_LEN` (R9): the accumulator's size in bytes. -/
def Params.accLen (p : Params) : Nat := max maxFrame p.maxCmdLen

/-- The ranges R6, R8 and R10 give the parameters, with the upper bound on QCAP that STATUS needs (R38). -/
def Params.ok (p : Params) : Bool :=
  decide (1 ≤ p.qcap) && decide (p.qcap ≤ 255)
    && decide (1 ≤ p.maxCmdLen) && decide (p.maxCmdLen ≤ 255)
    && decide (1 ≤ p.skipCount) && decide (p.skipCount ≤ 255)

end Sys2Proof.Config
end

