-- ==== Sys2Proof/Machine/State.lean ====
section
/-! DEFINITION. The state of one block (spec/10_state.md): every register of R23 to R37, the build parameters, the
block's outputs, and the model's own fields, which are named as such. Plain data throughout. -/

namespace Sys2Proof.Machine

/-- A command record (R40). A field whose presence bit is 0 has no value and is `none` (R41). -/
structure Record where
  /-- presenceMask1 (R39). -/
  pm1 : Half := 0
  /-- presenceMask2 (R39). -/
  pm2 : Half := 0
  /-- N, u32: presence pm1[0]. -/
  lineNumber : Option Word := none
  /-- M, u16: presence pm1[1]. -/
  mCode : Option Half := none
  /-- G, u16: presence pm1[2]. -/
  gCode : Option Half := none
  /-- X, a binary32 pattern: presence pm1[3]. -/
  x : Option Word := none
  /-- Y, a binary32 pattern: presence pm1[4]. -/
  y : Option Word := none
  /-- Z, a binary32 pattern: presence pm1[5]. -/
  z : Option Word := none
  /-- E, a binary32 pattern: presence pm1[6]. -/
  e : Option Word := none
  /-- F, a binary32 pattern: presence pm1[8]. -/
  f : Option Word := none
  /-- T, u8: presence pm1[9]. -/
  toolIndex : Option Byte := none
  /-- S, two's complement: presence pm1[10]. -/
  sValue : Option Word := none
  /-- P, two's complement: presence pm1[11]. -/
  pValue : Option Word := none
  /-- I, a binary32 pattern: presence pm2[0]. -/
  i : Option Word := none
  /-- J, a binary32 pattern: presence pm2[1]. -/
  j : Option Word := none
  /-- R, a binary32 pattern: presence pm2[2]. -/
  r : Option Word := none
  /-- Offset of the text slice in acc: presence pm1[15]. -/
  textStart : Option Byte := none
  /-- Length of the text slice in bytes: presence pm1[15]. -/
  textLen : Option Byte := none
  /-- Set when a numeric field failed to parse (R195). -/
  rawFormatError : Bool := false
deriving DecidableEq, Repr

/-- The error kinds (R330). -/
inductive ErrorKind where
  /-- Binary dual-sum or ASCII XOR mismatch (R143, R146). -/
  | checksumMismatch
  /-- A found token's number fails to parse, or the line overflows (R195, R271). -/
  | fieldFormatError
  /-- An ASCII line with none of M, G, T (R213). -/
  | missingRequiredField
  /-- A line without a mandatory checksum (R148). -/
  | missingChecksum
  /-- A numbered command out of sequence while Synced (R235). -/
  | sequenceGap
  /-- A byte offered while the queue is full (R261). -/
  | queueFull
  /-- A byte offered while a queued text aliases the accumulator (R261). -/
  | payloadInUse
deriving DecidableEq, Repr

/-- The events of the diagnostics sink (R334). -/
inductive Event where
  /-- A checksum failure and its kind. -/
  | checksumError (kind : ErrorKind)
  /-- A format failure and its kind. -/
  | formatError (kind : ErrorKind)
  /-- The first line not yet accepted. -/
  | resendRequested (line : Word)
  /-- The skipped command's line number. -/
  | lineSkipped (line : Word)
  /-- The acknowledged line, if it has a number. -/
  | acknowledged (line : Option Word)
deriving DecidableEq, Repr

/-- The response of a transaction (R83). -/
inductive Response where
  /-- IDLE, POP, RESET, CFG_WRITE, the reserved op. -/
  | ok
  /-- BYTE: the byte was consumed. -/
  | accepted
  /-- BYTE: the byte was not consumed. -/
  | refused (kind : ErrorKind)
  /-- PEEK of an empty queue. -/
  | empty
  /-- PEEK: the record, absent fields as `none`, and the bytes of its text slice. -/
  | record (r : Record) (text : Option (List Byte))
  /-- POP without a valid PEEK. -/
  | fault
  /-- STATUS: STAT0 to STAT3. -/
  | status (stat0 stat1 stat2 stat3 : Word)
deriving DecidableEq, Repr

/-- The values of a decode in progress. They are not state of the block (R20): inside a transaction they are computed
and dropped. The model keeps one copy in State so that a row of the table can also be run by itself
(notes/assumptions/3.md); a transaction neither reads nor writes that copy. The names are those of R160 and R190. -/
structure Work where
  /-- `n` of R190: how many bytes of acc the line has. -/
  len : Nat := 0
  /-- `off` of R160. -/
  off : Nat := 0
  /-- `bf1` of R160. -/
  bf1 : Half := 0
  /-- `bf2` of R160. -/
  bf2 : Half := 0
  /-- `tl` of R160. -/
  tl : Option Byte := none
  /-- `star` of R190. -/
  star : Option Nat := none
  /-- `B` of R190: where the body ends. -/
  bodyEnd : Nat := 0
  /-- `mpos` of R190. -/
  mpos : Option Nat := none
  /-- `textMode` of R190. -/
  textMode : Bool := false
  /-- `fmt` of R190. -/
  fmt : Bool := false
  /-- Whether the XOR check of R146 failed. -/
  xorBad : Bool := false
  /-- `rec` of R160 and R190. -/
  cmd : Record := {}
deriving DecidableEq, Repr

/-- The state of one block. -/
structure State where
  /-- The build parameters (R6, R8, R10). No step changes them. -/
  params : Config.Params := {}
  /-- The accumulator's bytes (R23), in the canonical form of `Memory.wf`. -/
  acc : List Host.Cell := []
  /-- The write cursor, u8 (R24). -/
  cursor : Byte := 0
  /-- The 'binary mode' flag (R25). -/
  binMode : Bool := false
  /-- The 'comment' flag (R26). -/
  comment : Bool := false
  /-- The frame length, u8, 0 while not known (R27). -/
  frameLen : Byte := 0
  /-- The source of the command's first byte, u1 (R28): false primary, true any other. -/
  frameSrc : Bool := false
  /-- The line number last accepted, u32 (R29). -/
  lastAcceptedLine : Word := 0
  /-- AwaitingResend (true) or Synced (false) (R30). -/
  awaiting : Bool := false
  /-- The line a resend was asked from, u32 (R30). -/
  pendingResendLine : Word := 0
  /-- The skip counter, u8 (R31). -/
  skipCount : Byte := 0
  /-- The count of decode failures in a row, u8 (R32). -/
  consecutiveFormatErrors : Byte := 0
  /-- The command slots (R33). -/
  slots : List Record := [{}, {}]
  /-- The index of the oldest occupied slot (R34). -/
  head : Nat := 0
  /-- The number of occupied slots (R34). -/
  count : Nat := 0
  /-- The last consumer transaction was a PEEK that returned a record (R35). -/
  peekValid : Bool := false
  /-- A queued record's text aliases the accumulator (R35). -/
  payloadBusy : Bool := false
  /-- 'Checksums mandatory' (R36). -/
  cfgChecksumMandatory : Bool := false
  /-- The sticky POP fault (R37). -/
  popFault : Bool := false
  /-- Output: the last transaction's response (R83). The model's own latch (notes/assumptions/2.md). -/
  response : Response := .ok
  /-- Output: the last transaction's event list (R335). The model's own latch (notes/assumptions/2.md). -/
  events : List Event := []
  /-- The model's own copy of a decode in progress (notes/assumptions/3.md). -/
  work : Work := {}
  /-- Input: the words the environment will present, the next one first (R76). The model's own field
  (notes/assumptions/1.md). -/
  port : List PortWord := []
deriving DecidableEq, Repr

/-- Why the machine stops. The spec's block never stops (R348): no state that meets `State.Inv` takes one of these. -/
inductive Fault where
  /-- An access to an accumulator offset that R60 does not give. Raised by the operations that read or write acc.
  Safe: the hardware has no such location. -/
  | accOutside (offset : Nat)
  /-- An access to a slot index that R60 does not give. Raised by push, PEEK and POP. Safe: the hardware has no such
  slot. -/
  | slotOutside (index : Nat)
  /-- A push while count is QCAP: the precondition of R290 does not hold. Raised by push. Safe: the model stops. -/
  | pushFull
deriving DecidableEq, Repr

/-- Why an instruction has no step. -/
inductive Refusal where
  /-- An instruction without a meaning, by its mnemonic. Raised by exec's refused arms; safe. -/
  | notModelled (mnemonic : String)
  /-- The port word names no instruction. Raised by step; safe: the port of R81 carries no such word. -/
  | undecodable (why : DecodeError)
deriving DecidableEq, Repr

/-- The block after power-on: the values of R371 (every field's default above). acc lists nothing and the slots are
blank, both unspecified by R370 (notes/assumptions/7.md, 8.md). -/
def State.reset : State := {}

end Sys2Proof.Machine
end

