-- ==== Sys2Proof/Machine/Ops.lean ====
section
/-! DEFINITION. The operations the meanings share: the accumulator's memory, the port, the response and the event
list, and the block's one trap-like path, FAIL (R339). -/

namespace Sys2Proof.Machine

/-! ## Memory: the accumulator space of R60 -/

/-- What an accumulator byte that nothing has written reads as (R370 leaves it unspecified: notes/assumptions/7.md). -/
def Memory.blank : Byte := 0

/-- The byte at an address. -/
def Memory.read : List Host.Cell → Nat → Byte
  | [], _ => Memory.blank
  | c :: m, a => if c.1 = a then c.2 else Memory.read m a

/-- Write one byte, keeping the canonical form: addresses strictly rising, no entry equal to the blank byte. -/
def Memory.write : List Host.Cell → Nat → Byte → List Host.Cell
  | [], a, b => if b = Memory.blank then [] else [(a, b)]
  | c :: m, a, b =>
    if a < c.1 then (if b = Memory.blank then c :: m else (a, b) :: c :: m)
    else if a = c.1 then (if b = Memory.blank then m else (a, b) :: m)
    else c :: Memory.write m a b

/-- Whether every address of the list lies above `a`. -/
def Memory.above (a : Nat) : List Host.Cell → Bool
  | [] => true
  | c :: m => decide (a < c.1) && Memory.above a m

/-- The canonical form: addresses strictly rising, no entry equal to what an unlisted address reads as. -/
def Memory.wf : List Host.Cell → Bool
  | [] => true
  | c :: m => decide (c.2 ≠ Memory.blank) && Memory.above c.1 m && Memory.wf m

/-- `acc[off .. off+n-1]`. -/
def Memory.slice (m : List Host.Cell) (off n : Nat) : List Byte := (List.range n).map fun k => Memory.read m (off + k)

/-- `MemRead(off, 1)` (R62), within the `size` bytes that exist (R60). -/
def memRead1 (size : Nat) (m : List Host.Cell) (off : Nat) : Except Fault Byte :=
  if off + 1 ≤ size then .ok (Memory.read m off) else .error (.accOutside off)

/-- `MemRead(off, 2)` (R62): little-endian. -/
def memRead2 (size : Nat) (m : List Host.Cell) (off : Nat) : Except Fault Half :=
  if off + 2 ≤ size then .ok (Memory.read m (off + 1) ++ Memory.read m off) else .error (.accOutside off)

/-- `MemRead(off, 4)` (R62): little-endian. -/
def memRead4 (size : Nat) (m : List Host.Cell) (off : Nat) : Except Fault Word :=
  if off + 4 ≤ size then
    .ok (Memory.read m (off + 3) ++ Memory.read m (off + 2) ++ Memory.read m (off + 1) ++ Memory.read m off)
  else .error (.accOutside off)

/-- The bytes `acc[off .. off+n-1]`, within the `size` bytes that exist (R60). -/
def memBytes (size : Nat) (m : List Host.Cell) (off n : Nat) : Except Fault (List Byte) :=
  if off + n ≤ size then .ok (Memory.slice m off n) else .error (.accOutside (off + n))

/-- `MemWrite(off, 1, v)` (R15), within the bytes that exist. -/
def State.storeAcc (s : State) (off : Nat) (v : Byte) : Except Fault State :=
  if off < s.params.accLen then .ok { s with acc := Memory.write s.acc off v } else .error (.accOutside off)

/-! ## The port and the outputs -/

/-- The port word the next step performs. With nothing offered no agent acts, and that step is IDLE (R310). -/
def State.fetch (s : State) : PortWord := s.port.headD ⟨.transaction, 0⟩

/-- A step takes its word off the port and starts with an empty event list (R335). -/
def State.consume (s : State) : State := { s with port := s.port.tail, events := [] }

/-- `respond r` (R15, R83). -/
def State.respond (s : State) (r : Response) : State := { s with response := r }

/-- `emit E` (R15): append to the transaction's event list (R335). -/
def State.emit (s : State) (e : Event) : State := { s with events := s.events ++ [e] }

/-- The step of a meaning that gives a state, or faults. -/
def finish : Except Fault State → Host.Outcome State Fault Refusal
  | .ok s => .next s
  | .error f => .fault f

/-- The step of a decode row run by itself: the result becomes the model's copy of the decode in progress. -/
def finishRow (s : State) : Except Fault Work → Host.Outcome State Fault Refusal
  | .ok w => .next { s.consume with work := w }
  | .error f => .fault f

/-! ## Codes -/

/-- The code of an error kind (R330). -/
def ErrorKind.code : ErrorKind → Byte
  | .checksumMismatch => 1
  | .fieldFormatError => 2
  | .missingRequiredField => 3
  | .missingChecksum => 4
  | .sequenceGap => 5
  | .queueFull => 6
  | .payloadInUse => 7

/-- The code of an event (R334). -/
def Event.code : Event → Byte
  | .checksumError _ => 1
  | .formatError _ => 2
  | .resendRequested _ => 3
  | .lineSkipped _ => 4
  | .acknowledged _ => 5

/-! ## The trap-like path (R339). Nothing is saved, and there is no return instruction: it ends with the transaction
(R340). -/

/-- The event that reports a decode failure: ChecksumError for the two checksum kinds, FormatError for the others
(R240, R336, R337). -/
def failureEvent : ErrorKind → Event
  | .checksumMismatch => .checksumError .checksumMismatch
  | .missingChecksum => .checksumError .missingChecksum
  | k => .formatError k

/-- `RESEND()` (R238). -/
def State.resend (s : State) : State :=
  { s with
    pendingResendLine := s.lastAcceptedLine + 1
    awaiting := true
    skipCount := BitVec.ofNat 8 s.params.skipCount
    events := s.events ++ [.resendRequested (s.lastAcceptedLine + 1)] }

/-- `FORCE_ACCEPT()` (R242). -/
def State.forceAccept (s : State) : State :=
  { s with
    lastAcceptedLine := s.lastAcceptedLine + 1
    consecutiveFormatErrors := 0
    awaiting := false
    skipCount := 0
    events := s.events ++ [.acknowledged (some (s.lastAcceptedLine + 1))] }

/-- The failure event and the counter's increment, the first two actions of `FAIL(kind)` (R240). -/
def State.countFailure (s : State) (k : ErrorKind) : State :=
  { s with
    consecutiveFormatErrors := s.consecutiveFormatErrors + 1
    events := s.events ++ [failureEvent k] }

/-- `FAIL(kind)` (R240): taking the one exception the block has. -/
def State.fail (s : State) (k : ErrorKind) : State :=
  if (s.countFailure k).consecutiveFormatErrors.toNat < Config.errThreshold then (s.countFailure k).resend
  else (s.countFailure k).forceAccept

end Sys2Proof.Machine
end

