-- ==== Sys2Proof/Machine/Operands.lean ====
section
/-! DEFINITION. The operand forms: the characters of R16, the ASCII numbers of R193 and R194, the token search of
R192, the text slices of R210 and R211, and the bits of a mask. -/

namespace Sys2Proof.Machine

/-! ## Characters (R16) -/

/-- NUL. -/
def chNul : Byte := 0x00
/-- TAB. -/
def chTab : Byte := 0x09
/-- LF. -/
def chLf : Byte := 0x0A
/-- CR. -/
def chCr : Byte := 0x0D
/-- The space character. -/
def chSpace : Byte := 0x20
/-- '*'. -/
def chStar : Byte := 0x2A
/-- '+'. -/
def chPlus : Byte := 0x2B
/-- '-'. -/
def chMinus : Byte := 0x2D
/-- '.'. -/
def chDot : Byte := 0x2E
/-- ':'. -/
def chColon : Byte := 0x3A
/-- ';'. -/
def chSemicolon : Byte := 0x3B

/-- Whether the byte is one of '0' to '9'. -/
def isDigit (b : Byte) : Bool := decide (0x30 ≤ b.toNat) && decide (b.toNat ≤ 0x39)

/-- The value of a digit. -/
def digitVal (b : Byte) : Nat := b.toNat - 0x30

/-- `WS` of R210: SPACE and TAB. -/
def isSpace (b : Byte) : Bool := b == chSpace || b == chTab

/-- The bytes that end a line inside a comment: NUL, LF, CR (R93, R268). -/
def endsComment (b : Byte) : Bool := b == chNul || b == chLf || b == chCr

/-- The bytes that end a line outside a comment: NUL, LF, CR and ':' (R93, R269). -/
def endsLine (b : Byte) : Bool := endsComment b || b == chColon

/-! ## Numbers -/

/-- A run of digits from value `v` and count `n`: the value, the count and what follows (R193). -/
def digitRun (v n : Nat) : List Byte → Nat × Nat × List Byte
  | [] => (v, n, [])
  | b :: t => if isDigit b then digitRun (10 * v + digitVal b) (n + 1) t else (v, n, b :: t)

/-- An optional sign: whether it is '-', and what follows (R193, R194). -/
def signOf : List Byte → Bool × List Byte
  | [] => (false, [])
  | b :: t => if b = chMinus then (true, t) else if b = chPlus then (false, t) else (false, b :: t)

/-- `INT` (R193), on the bytes from the number's start to its limit: an unbounded integer, or FAIL. -/
def parseInt (l : List Byte) : Option Int :=
  let d := digitRun 0 0 (signOf l).2
  if d.2.1 = 0 then none else some (if (signOf l).1 then -(d.1 : Int) else (d.1 : Int))

/-- Divide and round to the nearest integer, ties to even. -/
def roundHalfEven (num den : Nat) : Nat :=
  let q := num / den
  let r := num % den
  if den < 2 * r ∨ (2 * r = den ∧ q % 2 = 1) then q + 1 else q

/-- `DEC2F32` of the rational `num / den` (R194): the binary32 value nearest to it, ties to even. `num / den` is
measured in units of 2^-149, the smallest subnormal; `k` is how many of its bits lie above a 24-bit significand. -/
def dec2f32 (num den : Nat) : Word :=
  let q := num * 2 ^ 149 / den
  let k := Nat.log2 q - 23
  let bits := k * 2 ^ 23 + roundHalfEven (num * 2 ^ 149) (den * 2 ^ k)
  BitVec.ofNat 32 (min bits 0x7F800000)

/-- The fraction after the integer digits, if a '.' follows them: the numerator so far and how many fraction digits
(R194). -/
def fractionRun (a : Nat) : List Byte → Nat × Nat
  | [] => (a, 0)
  | b :: t => if b = chDot then ((digitRun a 0 t).1, (digitRun a 0 t).2.1) else (a, 0)

/-- `FLT` (R194), on the bytes from the number's start to its limit: the binary32 pattern, or FAIL. -/
def parseFloat (l : List Byte) : Option Word :=
  let d := digitRun 0 0 (signOf l).2
  let fr := fractionRun d.1 d.2.2
  if d.2.1 + fr.2 = 0 then none
  else
    let bits := dec2f32 fr.1 (10 ^ fr.2)
    some (if (signOf l).1 then bits ||| 0x80000000 else bits)

/-! ## Search and text -/

/-- `FIND` (R190): the least index of the byte. -/
def findByte (ch : Byte) (c : List Byte) : Option Nat := c.findIdx? (· == ch)

/-- Where a text starts (R210): past the M number to the next whitespace, then past all whitespace. `body` is
c[0..B-1], `mpos` the index of the M. -/
def textStartOf (body : List Byte) (mpos : Nat) : Nat :=
  body.length - (((body.drop (mpos + 1)).dropWhile fun b => !isSpace b).dropWhile isSpace).length

/-- The length of a one-word text (R210): "It ends at the next SPACE" or at the body's end (92_eei_decisions.md D17,
notes/assumptions/14.md). -/
def textWordLen (body : List Byte) (start : Nat) : Nat := ((body.drop start).takeWhile (· != chSpace)).length

/-! ## Masks -/

/-- Bit `i` of a mask set to `b`. -/
def putBit (v : Half) (i : Nat) (b : Bool) : Half :=
  if b then v ||| (1#16 <<< i) else v &&& ~~~(1#16 <<< i)

/-- Bit `i` of the mask `dst` copied from `src`. -/
def copyBit (src dst : Half) (i : Nat) : Half := putBit dst i (src.getLsbD i)

/-- `le16`: the little-endian bytes (R220). -/
def le16 (v : Half) : List Byte := [v.extractLsb' 0 8, v.extractLsb' 8 8]

/-- `le32`: the little-endian bytes (R220). -/
def le32 (v : Word) : List Byte :=
  [v.extractLsb' 0 8, v.extractLsb' 8 8, v.extractLsb' 16 8, v.extractLsb' 24 8]

end Sys2Proof.Machine
end

