-- ==== Sys2Proof/Machine/Flags.lean ====
section
/-! DEFINITION. The flag computations: a record's presence bits (R39), the masks of an ASCII record (R212), the
record PEEK reports (R292), the checksum exemption (R148) and the STATUS words (R38). -/

namespace Sys2Proof.Machine

/-- Whether the record carries text: pm1[15] (R39). -/
def Record.hasText (r : Record) : Bool := r.pm1.getLsbD 15

/-- Whether the record has a line number: pm1[0]. -/
def Record.numbered (r : Record) : Bool := r.pm1.getLsbD 0

/-- Whether the record is a line-number reset: pm1[1] and M = 110 (R230). -/
def Record.isLineReset (r : Record) : Bool := r.pm1.getLsbD 1 && r.mCode == some Config.lineResetCode

/-- The record's line number. Read only where pm1[0] = 1. -/
def Record.line (r : Record) : Word := r.lineNumber.getD 0

/-- Whether each field is there exactly when its presence bit is set (R39 to R41). -/
def Record.matchesMasks (r : Record) : Bool :=
  (r.lineNumber.isSome == r.pm1.getLsbD 0) && (r.mCode.isSome == r.pm1.getLsbD 1)
    && (r.gCode.isSome == r.pm1.getLsbD 2) && (r.x.isSome == r.pm1.getLsbD 3)
    && (r.y.isSome == r.pm1.getLsbD 4) && (r.z.isSome == r.pm1.getLsbD 5)
    && (r.e.isSome == r.pm1.getLsbD 6) && (r.f.isSome == r.pm1.getLsbD 8)
    && (r.toolIndex.isSome == r.pm1.getLsbD 9) && (r.sValue.isSome == r.pm1.getLsbD 10)
    && (r.pValue.isSome == r.pm1.getLsbD 11) && (r.i.isSome == r.pm2.getLsbD 0)
    && (r.j.isSome == r.pm2.getLsbD 1) && (r.r.isSome == r.pm2.getLsbD 2)
    && (r.textStart.isSome == r.pm1.getLsbD 15) && (r.textLen.isSome == r.pm1.getLsbD 15)

/-- A field whose presence bit is 0 is `none` (R41). -/
def keepIf {α : Type} (present : Bool) (v : Option α) : Option α := if present then v else none

/-- The record as PEEK reports it (R292): every field whose presence bit is 0 given as `none`. -/
def Record.reported (r : Record) : Record :=
  { r with
    lineNumber := keepIf (r.pm1.getLsbD 0) r.lineNumber
    mCode := keepIf (r.pm1.getLsbD 1) r.mCode
    gCode := keepIf (r.pm1.getLsbD 2) r.gCode
    x := keepIf (r.pm1.getLsbD 3) r.x
    y := keepIf (r.pm1.getLsbD 4) r.y
    z := keepIf (r.pm1.getLsbD 5) r.z
    e := keepIf (r.pm1.getLsbD 6) r.e
    f := keepIf (r.pm1.getLsbD 8) r.f
    toolIndex := keepIf (r.pm1.getLsbD 9) r.toolIndex
    sValue := keepIf (r.pm1.getLsbD 10) r.sValue
    pValue := keepIf (r.pm1.getLsbD 11) r.pValue
    i := keepIf (r.pm2.getLsbD 0) r.i
    j := keepIf (r.pm2.getLsbD 1) r.j
    r := keepIf (r.pm2.getLsbD 2) r.r
    textStart := keepIf (r.pm1.getLsbD 15) r.textStart
    textLen := keepIf (r.pm1.getLsbD 15) r.textLen }

/-- The value of an optional code is above 255. -/
def above255 (v : Option Half) : Bool := match v with
  | some c => decide (255 < c.toNat)
  | none => false

/-- A mask from its bits, bit 0 first. -/
def maskOf : List Bool → Half
  | [] => 0
  | b :: t => (maskOf t <<< 1) ||| (BitVec.ofBool b).zeroExtend 16

/-- pm2 of an ASCII record (R212). -/
def asciiPm2 (r : Record) : Half := maskOf [r.i.isSome, r.j.isSome, r.r.isSome]

/-- pm1 of an ASCII record (R212). -/
def asciiPm1 (r : Record) (textMode : Bool) : Half :=
  maskOf [r.lineNumber.isSome, r.mCode.isSome, r.gCode.isSome, r.x.isSome, r.y.isSome, r.z.isSome, r.e.isSome,
    false, r.f.isSome, r.toolIndex.isSome, r.sValue.isSome, r.pValue.isSome,
    above255 r.mCode || above255 r.gCode || asciiPm2 r != 0, false, false, textMode]

/-- Whether a line without '*' is excused from a mandatory checksum (R148). -/
def checksumExempt (r : Record) (src : Bool) : Bool := r.isLineReset || r.hasText || src

/-- STAT0 (R38). -/
def State.stat0 (s : State) : Word :=
  s.frameLen ++ s.cursor ++ BitVec.ofBool s.frameSrc ++ BitVec.ofBool s.comment ++ BitVec.ofBool s.binMode
    ++ BitVec.ofBool s.cfgChecksumMandatory ++ BitVec.ofBool s.popFault ++ BitVec.ofBool s.peekValid
    ++ BitVec.ofBool s.payloadBusy ++ BitVec.ofBool s.awaiting ++ BitVec.ofNat 8 s.count

/-- STAT1 (R38). -/
def State.stat1 (s : State) : Word := s.lastAcceptedLine

/-- STAT2 (R38). -/
def State.stat2 (s : State) : Word := s.pendingResendLine

/-- STAT3 (R38): bits 31:24 read 0. -/
def State.stat3 (s : State) : Word := 0#8 ++ BitVec.ofNat 8 s.head ++ s.consecutiveFormatErrors ++ s.skipCount

end Sys2Proof.Machine
end

