-- ==== Sys2Proof/Machine/Control.lean ====
section
/-! DEFINITION. The control transactions (spec/46_control.md): IDLE, RESET, CFG_WRITE, STATUS and the reserved op. -/

namespace Sys2Proof.Machine

/-- IDLE (R310): no register changes. -/
def execIdle (s : State) : Host.Outcome State Fault Refusal := .next (s.consume.respond .ok)

/-- The registers RESET writes (R311): every one but acc and the slots. The model's copy of a decode in progress is
dropped with them (notes/assumptions/3.md). -/
def State.softReset (s : State) : State :=
  { s with
    cursor := 0
    binMode := false
    comment := false
    frameLen := 0
    frameSrc := false
    lastAcceptedLine := 0
    awaiting := false
    pendingResendLine := 0
    skipCount := 0
    consecutiveFormatErrors := 0
    head := 0
    count := 0
    peekValid := false
    payloadBusy := false
    cfgChecksumMandatory := false
    popFault := false
    work := {} }

/-- RESET (R311). -/
def execReset (s : State) : Host.Outcome State Fault Refusal := .next (s.consume.softReset.respond .ok)

/-- CFG_WRITE(v) (R312). -/
def execCfgWrite (v : Bool) (s : State) : Host.Outcome State Fault Refusal :=
  .next (({ s.consume with cfgChecksumMandatory := v } : State).respond .ok)

/-- STATUS (R313): the words of R38, no register changes. -/
def execStatus (s : State) : Host.Outcome State Fault Refusal :=
  .next (s.consume.respond (.status s.stat0 s.stat1 s.stat2 s.stat3))

/-- The reserved op 7 (R84, R314): no register changes. -/
def execRsvd7 (s : State) : Host.Outcome State Fault Refusal := .next (s.consume.respond .ok)

end Sys2Proof.Machine
end

