-- ==== Sys2Proof/Machine/Fields.lean ====
section
/-! DEFINITION. What the field rows of binary decode share (spec/42_field_codec.md R160): a row copies its presence
bit into the record's mask and, when the bit is set, reads its field at `off` and moves `off` past it. -/

namespace Sys2Proof.Machine

/-- `v2` of R160: bitfield-1 bit 12. -/
def Work.v2 (w : Work) : Bool := w.bf1.getLsbD 12

/-- pm1[i] copied from bf1[i] ("Presence written"). -/
def Work.present1 (w : Work) (i : Nat) : Work :=
  { w with cmd := { w.cmd with pm1 := copyBit w.bf1 w.cmd.pm1 i } }

/-- pm2[i] copied from bf2[i] ("Presence written"). -/
def Work.present2 (w : Work) (i : Nat) : Work :=
  { w with cmd := { w.cmd with pm2 := copyBit w.bf2 w.cmd.pm2 i } }

/-- The field is read when its bit is set, else nothing more happens. -/
def fieldIf (present : Bool) (w : Work) (read : Except Fault Work) : Except Fault Work :=
  if present then read else .ok w

/-- A 4-byte field at `off` (R167 to R171, R173 to R177): the 32 bits moved unchanged. -/
def wordField (size : Nat) (m : List Host.Cell) (w : Work) (put : Record → Word → Record) : Except Fault Work :=
  match memRead4 size m w.off with
  | .ok v => .ok { w with off := w.off + 4, cmd := put w.cmd v }
  | .error f => .error f

/-- A 2-byte field at `off` (R164). -/
def halfField (size : Nat) (m : List Host.Cell) (w : Work) (put : Record → Half → Record) : Except Fault Work :=
  match memRead2 size m w.off with
  | .ok v => .ok { w with off := w.off + 2, cmd := put w.cmd v }
  | .error f => .error f

/-- A 1-byte field at `off` (R172). -/
def byteField (size : Nat) (m : List Host.Cell) (w : Work) (put : Record → Byte → Record) : Except Fault Work :=
  match memRead1 size m w.off with
  | .ok v => .ok { w with off := w.off + 1, cmd := put w.cmd v }
  | .error f => .error f

/-- An M or G code at `off` (R165, R166): one byte widened in V1, two bytes in V2, by the flag alone (R90). -/
def codeField (size : Nat) (m : List Host.Cell) (w : Work) (put : Record → Half → Record) : Except Fault Work :=
  if w.v2 then halfField size m w put
  else byteField size m w fun c v => put c (v.zeroExtend 16)

end Sys2Proof.Machine
end

