-- ==== Sys2Proof/Machine/Bitfield1.lean ====
section
/-! DEFINITION. The bitfield-1 rows of the opcode table (spec/42_field_codec.md R161 to R174, R178, R179, R181): what
each does to a binary decode in progress, and the meaning of the row run by itself. -/

namespace Sys2Proof.Machine

/-- R161 with bitfield-1 bit 12 clear: the V1 layout. Bitfield-2 is 0 (R160, R162). -/
def rowBf1V1 (size : Nat) (m : List Host.Cell) (w : Work) : Except Fault Work :=
  match memRead2 size m 0 with
  | .error f => .error f
  | .ok bf1 =>
    if bf1.getLsbD 12 then .ok w
    else .ok { w with bf1 := bf1, bf2 := 0, tl := none, off := 2, cmd := { pm1 := bf1 } }

/-- R161 with bitfield-1 bit 12 set: the V2 layout, with bitfield-2 (R162) and, when bit 15 is set too, the
text-length byte (R163). -/
def rowBf1V2 (size : Nat) (m : List Host.Cell) (w : Work) : Except Fault Work :=
  match memRead2 size m 0 with
  | .error f => .error f
  | .ok bf1 =>
    if bf1.getLsbD 12 then
      match memRead2 size m 2 with
      | .error f => .error f
      | .ok bf2 =>
        if bf1.getLsbD 15 then
          match memRead1 size m 4 with
          | .error f => .error f
          | .ok tl => .ok { w with bf1 := bf1, bf2 := bf2, tl := some tl, off := 5, cmd := { pm1 := bf1, pm2 := bf2 } }
        else .ok { w with bf1 := bf1, bf2 := bf2, tl := none, off := 4, cmd := { pm1 := bf1, pm2 := bf2 } }
    else .ok w

/-- R161, R181: the binary-framing marker is copied into pm1[7]. -/
def rowBf1Mark (w : Work) : Work := w.present1 7

/-- R164: the line number, u16 widened by zero extension. -/
def rowBf1N (size : Nat) (m : List Host.Cell) (w : Work) : Except Fault Work :=
  fieldIf (w.bf1.getLsbD 0) (w.present1 0)
    (halfField size m (w.present1 0) fun c v => { c with lineNumber := some (v.zeroExtend 32) })

/-- R165: the M code. -/
def rowBf1M (size : Nat) (m : List Host.Cell) (w : Work) : Except Fault Work :=
  fieldIf (w.bf1.getLsbD 1) (w.present1 1) (codeField size m (w.present1 1) fun c v => { c with mCode := some v })

/-- R166: the G code. -/
def rowBf1G (size : Nat) (m : List Host.Cell) (w : Work) : Except Fault Work :=
  fieldIf (w.bf1.getLsbD 2) (w.present1 2) (codeField size m (w.present1 2) fun c v => { c with gCode := some v })

/-- R167: X. -/
def rowBf1X (size : Nat) (m : List Host.Cell) (w : Work) : Except Fault Work :=
  fieldIf (w.bf1.getLsbD 3) (w.present1 3) (wordField size m (w.present1 3) fun c v => { c with x := some v })

/-- R168: Y. -/
def rowBf1Y (size : Nat) (m : List Host.Cell) (w : Work) : Except Fault Work :=
  fieldIf (w.bf1.getLsbD 4) (w.present1 4) (wordField size m (w.present1 4) fun c v => { c with y := some v })

/-- R169: Z. -/
def rowBf1Z (size : Nat) (m : List Host.Cell) (w : Work) : Except Fault Work :=
  fieldIf (w.bf1.getLsbD 5) (w.present1 5) (wordField size m (w.present1 5) fun c v => { c with z := some v })

/-- R170: E. -/
def rowBf1E (size : Nat) (m : List Host.Cell) (w : Work) : Except Fault Work :=
  fieldIf (w.bf1.getLsbD 6) (w.present1 6) (wordField size m (w.present1 6) fun c v => { c with e := some v })

/-- R171: F. -/
def rowBf1F (size : Nat) (m : List Host.Cell) (w : Work) : Except Fault Work :=
  fieldIf (w.bf1.getLsbD 8) (w.present1 8) (wordField size m (w.present1 8) fun c v => { c with f := some v })

/-- R172: the tool index. -/
def rowBf1T (size : Nat) (m : List Host.Cell) (w : Work) : Except Fault Work :=
  fieldIf (w.bf1.getLsbD 9) (w.present1 9) (byteField size m (w.present1 9) fun c v => { c with toolIndex := some v })

/-- R173: S, two's complement. -/
def rowBf1S (size : Nat) (m : List Host.Cell) (w : Work) : Except Fault Work :=
  fieldIf (w.bf1.getLsbD 10) (w.present1 10) (wordField size m (w.present1 10) fun c v => { c with sValue := some v })

/-- R174: P, two's complement. -/
def rowBf1P (size : Nat) (m : List Host.Cell) (w : Work) : Except Fault Work :=
  fieldIf (w.bf1.getLsbD 11) (w.present1 11) (wordField size m (w.present1 11) fun c v => { c with pValue := some v })

/-- R181: the reserved-extension bit is copied into pm1[13]; no byte is read for it. -/
def rowBf1Ext (w : Work) : Work := w.present1 13

/-- R181: the internal-command marker is copied into pm1[14]. -/
def rowBf1Internal (w : Work) : Work := w.present1 14

/-- R178: the V1 text, 16 bytes at `off`, by its place and length. -/
def rowBf1TextV1 (w : Work) : Work :=
  let w := w.present1 15
  if !w.v2 && w.bf1.getLsbD 15 then
    { w with
      off := w.off + Config.textV1
      cmd := { w.cmd with textStart := some (BitVec.ofNat 8 w.off), textLen := some (BitVec.ofNat 8 Config.textV1) } }
  else w

/-- The V2 text count (R179, R126): min(tl, 79). -/
def textV2Len (tl : Option Byte) : Nat := min (tl.getD 0).toNat (Config.textCap - 1)

/-- R179: the V2 text, min(tl, 79) bytes at `off`, by its place and length. -/
def rowBf1TextV2 (w : Work) : Work :=
  let w := w.present1 15
  if w.v2 && w.bf1.getLsbD 15 then
    { w with
      off := w.off + textV2Len w.tl
      cmd := { w.cmd with
        textStart := some (BitVec.ofNat 8 w.off)
        textLen := some (BitVec.ofNat 8 (textV2Len w.tl)) } }
  else w

/-! ## The rows by themselves -/

/-- The row BF1_V1 by itself. -/
def execBf1V1 (s : State) : Host.Outcome State Fault Refusal :=
  finishRow s (rowBf1V1 s.params.accLen s.acc s.work)

/-- The row BF1_V2 by itself. -/
def execBf1V2 (s : State) : Host.Outcome State Fault Refusal :=
  finishRow s (rowBf1V2 s.params.accLen s.acc s.work)

/-- The row BF1_MARK by itself. -/
def execBf1Mark (s : State) : Host.Outcome State Fault Refusal :=
  finishRow s (.ok (rowBf1Mark s.work))

/-- The row BF1_N by itself. -/
def execBf1N (s : State) : Host.Outcome State Fault Refusal :=
  finishRow s (rowBf1N s.params.accLen s.acc s.work)

/-- The row BF1_M by itself. -/
def execBf1M (s : State) : Host.Outcome State Fault Refusal :=
  finishRow s (rowBf1M s.params.accLen s.acc s.work)

/-- The row BF1_G by itself. -/
def execBf1G (s : State) : Host.Outcome State Fault Refusal :=
  finishRow s (rowBf1G s.params.accLen s.acc s.work)

/-- The row BF1_X by itself. -/
def execBf1X (s : State) : Host.Outcome State Fault Refusal :=
  finishRow s (rowBf1X s.params.accLen s.acc s.work)

/-- The row BF1_Y by itself. -/
def execBf1Y (s : State) : Host.Outcome State Fault Refusal :=
  finishRow s (rowBf1Y s.params.accLen s.acc s.work)

/-- The row BF1_Z by itself. -/
def execBf1Z (s : State) : Host.Outcome State Fault Refusal :=
  finishRow s (rowBf1Z s.params.accLen s.acc s.work)

/-- The row BF1_E by itself. -/
def execBf1E (s : State) : Host.Outcome State Fault Refusal :=
  finishRow s (rowBf1E s.params.accLen s.acc s.work)

/-- The row BF1_F by itself. -/
def execBf1F (s : State) : Host.Outcome State Fault Refusal :=
  finishRow s (rowBf1F s.params.accLen s.acc s.work)

/-- The row BF1_T by itself. -/
def execBf1T (s : State) : Host.Outcome State Fault Refusal :=
  finishRow s (rowBf1T s.params.accLen s.acc s.work)

/-- The row BF1_S by itself. -/
def execBf1S (s : State) : Host.Outcome State Fault Refusal :=
  finishRow s (rowBf1S s.params.accLen s.acc s.work)

/-- The row BF1_P by itself. -/
def execBf1P (s : State) : Host.Outcome State Fault Refusal :=
  finishRow s (rowBf1P s.params.accLen s.acc s.work)

/-- The row BF1_EXT by itself. -/
def execBf1Ext (s : State) : Host.Outcome State Fault Refusal :=
  finishRow s (.ok (rowBf1Ext s.work))

/-- The row BF1_INTERNAL by itself. -/
def execBf1Internal (s : State) : Host.Outcome State Fault Refusal :=
  finishRow s (.ok (rowBf1Internal s.work))

/-- The row BF1_TEXT_V1 by itself. -/
def execBf1TextV1 (s : State) : Host.Outcome State Fault Refusal :=
  finishRow s (.ok (rowBf1TextV1 s.work))

/-- The row BF1_TEXT_V2 by itself. -/
def execBf1TextV2 (s : State) : Host.Outcome State Fault Refusal :=
  finishRow s (.ok (rowBf1TextV2 s.work))

end Sys2Proof.Machine
end

