-- ==== Sys2Proof/Machine/Bitfield2.lean ====
section
/-! DEFINITION. The bitfield-2 rows of the opcode table (spec/42_field_codec.md R175 to R177, R181), which only a V2
frame has. -/

namespace Sys2Proof.Machine

/-- R175: I, in V2 only. -/
def rowBf2I (size : Nat) (m : List Host.Cell) (w : Work) : Except Fault Work :=
  fieldIf (w.v2 && w.bf2.getLsbD 0) (w.present2 0) (wordField size m (w.present2 0) fun c v => { c with i := some v })

/-- R176: J, in V2 only. -/
def rowBf2J (size : Nat) (m : List Host.Cell) (w : Work) : Except Fault Work :=
  fieldIf (w.v2 && w.bf2.getLsbD 1) (w.present2 1) (wordField size m (w.present2 1) fun c v => { c with j := some v })

/-- R177: R, in V2 only. -/
def rowBf2R (size : Nat) (m : List Host.Cell) (w : Work) : Except Fault Work :=
  fieldIf (w.v2 && w.bf2.getLsbD 2) (w.present2 2) (wordField size m (w.present2 2) fun c v => { c with r := some v })

/-- R181, R87: bits 15:3 of bitfield-2 are copied into pm2[15:3]; no byte is read for them. -/
def rowBf2Rsv (w : Work) : Work :=
  { w with cmd := { w.cmd with pm2 := (w.cmd.pm2 &&& 0x0007) ||| (w.bf2 &&& 0xFFF8) } }

/-! ## The rows by themselves -/

/-- The row BF2_I by itself. -/
def execBf2I (s : State) : Host.Outcome State Fault Refusal :=
  finishRow s (rowBf2I s.params.accLen s.acc s.work)

/-- The row BF2_J by itself. -/
def execBf2J (s : State) : Host.Outcome State Fault Refusal :=
  finishRow s (rowBf2J s.params.accLen s.acc s.work)

/-- The row BF2_R by itself. -/
def execBf2R (s : State) : Host.Outcome State Fault Refusal :=
  finishRow s (rowBf2R s.params.accLen s.acc s.work)

/-- The row BF2_RSV by itself. -/
def execBf2Rsv (s : State) : Host.Outcome State Fault Refusal :=
  finishRow s (.ok (rowBf2Rsv s.work))

end Sys2Proof.Machine
end

