-- ==== Sys2Proof/Machine/FrameSize.lean ====
section
/-! DEFINITION. FrameSizeCalculator (spec/40_frame_size.md): pure functions of the header bytes. -/

namespace Sys2Proof.Machine

/-- Byte `i` of a header. Every use is behind a length check, so the default is never the answer. -/
def headerByte (h : List Byte) (i : Nat) : Byte := h.getD i 0

/-- Bitfield-1 of a header (R120). -/
def headerBf1 (h : List Byte) : Half := headerByte h 1 ++ headerByte h 0

/-- Bitfield-2 of a header (R121). -/
def headerBf2 (h : List Byte) : Half := headerByte h 3 ++ headerByte h 2

/-- `FS.need(h)` (R120), for a header of at least 2 bytes. -/
def fsNeed (h : List Byte) : Nat :=
  if (headerBf1 h).getLsbD 12 = false then 2
  else if (headerBf1 h).getLsbD 15 = false then 4
  else 5

/-- `n` when the bit is set. -/
def sizeIf (b : Bool) (n : Nat) : Nat := if b then n else 0

/-- The part of the length that bitfield-1 gives V1 and V2 frames alike (R121). -/
def commonSize (bf1 : Half) : Nat :=
  4 + sizeIf (bf1.getLsbD 0) 2 + sizeIf (bf1.getLsbD 3) 4 + sizeIf (bf1.getLsbD 4) 4 + sizeIf (bf1.getLsbD 5) 4
    + sizeIf (bf1.getLsbD 6) 4 + sizeIf (bf1.getLsbD 8) 4 + sizeIf (bf1.getLsbD 9) 1 + sizeIf (bf1.getLsbD 10) 4
    + sizeIf (bf1.getLsbD 11) 4

/-- `FS.size(h)` (R121); `none` is FAIL (R122). -/
def fsSize (h : List Byte) : Option Nat :=
  if h.length < 2 then none
  else
    let bf1 := headerBf1 h
    if bf1.getLsbD 12 then
      if h.length < 4 then none
      else
        let bf2 := headerBf2 h
        let s := commonSize bf1 + 2 + sizeIf (bf1.getLsbD 1) 2 + sizeIf (bf1.getLsbD 2) 2
          + sizeIf (bf2.getLsbD 0) 4 + sizeIf (bf2.getLsbD 1) 4 + sizeIf (bf2.getLsbD 2) 4
        if bf1.getLsbD 15 then
          if h.length < 5 then none else some (s + min Config.textCap ((headerByte h 4).toNat + 1))
        else some s
    else
      some (commonSize bf1 + sizeIf (bf1.getLsbD 1) 1 + sizeIf (bf1.getLsbD 2) 1
        + sizeIf (bf1.getLsbD 15) Config.textV1)

end Sys2Proof.Machine
end

