-- ==== Sys2Proof/Machine/Checksum.lean ====
section
/-! DEFINITION. The two checksums (spec/41_checksum.md): the dual-sum of binary frames and the XOR of ASCII lines. -/

namespace Sys2Proof.Machine

/-- One addition of the dual-sum (R140): both sums reduced modulo 255, the second taking the first after its update. -/
def dualSumStep (s : Nat × Nat) (b : Byte) : Nat × Nat :=
  ((s.1 + b.toNat) % 255, (s.2 + (s.1 + b.toNat) % 255) % 255)

/-- `DS` (R140), the named function DUALSUM: Fletcher-16 from zero starts (notes/assumptions/12.md). -/
def dualSum (l : List Byte) : Byte × Byte :=
  let s := l.foldl dualSumStep (0, 0)
  (BitVec.ofNat 8 s.1, BitVec.ofNat 8 s.2)

/-- Binary validity of a whole frame (R141 to R143): exact equality of its last two bytes with the dual-sum of the
bytes before them. -/
def frameValid (frame : List Byte) : Bool :=
  let n := frame.length - 2
  frame.getD n 0 == (dualSum (frame.take n)).1 && frame.getD (n + 1) 0 == (dualSum (frame.take n)).2

/-- The XOR of the bytes of a body (R146): 0 for none. -/
def xorSum (l : List Byte) : Byte := l.foldl (· ^^^ ·) 0

/-- The ASCII checksum check (R146) of the content `c` whose first '*' is at `star`: whether it passes. -/
def xorPasses (c : List Byte) (star : Nat) : Bool :=
  let d := digitRun 0 0 (c.drop (star + 1))
  decide (d.2.1 ≠ 0) && decide (d.1 = (xorSum (c.take star)).toNat)

end Sys2Proof.Machine
end

