-- ==== Sys2Proof/Machine/AsciiToken.lean ====
section
/-! DEFINITION. The rows of an ASCII decode (spec/42_field_codec.md R190 to R209): the '*' that begins the checksum
suffix, and the fourteen token letters. `c` is the line's stored content. -/

namespace Sys2Proof.Machine

/-- The body of the line, c[0..B-1] (R191). -/
def Work.body (w : Work) (c : List Byte) : List Byte := c.take w.bodyEnd

/-- `S` of R190: where the search for the letters other than M ends (R192). -/
def Work.limit (w : Work) : Nat := if w.textMode then w.mpos.getD 0 else w.bodyEnd

/-- R96, R191, R146: the first '*' ends the body and begins the checksum suffix, whose check is noted for R213. -/
def rowChecksumStar (c : List Byte) (w : Work) : Work :=
  match findByte chStar c with
  | some k => { w with star := some k, bodyEnd := k, xorBad := !xorPasses c k }
  | none => { w with star := none, bodyEnd := c.length, xorBad := false }

/-- R196: M is searched in the whole body; its value decides text mode. -/
def rowTokM (c : List Byte) (w : Work) : Work :=
  match findByte 0x4D (w.body c) with
  | none => { w with mpos := none }
  | some p =>
    match parseInt ((w.body c).drop (p + 1)) with
    | none => { w with mpos := some p, fmt := true }
    | some v =>
      { w with
        mpos := some p
        textMode := Config.textM.contains (BitVec.ofInt 16 v)
        cmd := { w.cmd with mCode := some (BitVec.ofInt 16 v) } }

/-- A letter other than M with an integer after it (R192, R193): searched up to `S`, parsed up to `B`; a failed
parse sets fmt (R195). -/
def tokInt (ch : Byte) (c : List Byte) (w : Work) (put : Record → Int → Record) : Work :=
  match findByte ch ((w.body c).take w.limit) with
  | none => w
  | some p =>
    match parseInt ((w.body c).drop (p + 1)) with
    | none => { w with fmt := true }
    | some v => { w with cmd := put w.cmd v }

/-- A letter with a decimal after it (R192, R194). -/
def tokFloat (ch : Byte) (c : List Byte) (w : Work) (put : Record → Word → Record) : Work :=
  match findByte ch ((w.body c).take w.limit) with
  | none => w
  | some p =>
    match parseFloat ((w.body c).drop (p + 1)) with
    | none => { w with fmt := true }
    | some v => { w with cmd := put w.cmd v }

/-- R197: the value truncated to the field's width (R14). -/
def rowTokN (c : List Byte) (w : Work) : Work :=
  tokInt 0x4E c w fun d v => { d with lineNumber := some (BitVec.ofInt 32 v) }

/-- R198: the value truncated to the field's width (R14). -/
def rowTokG (c : List Byte) (w : Work) : Work :=
  tokInt 0x47 c w fun d v => { d with gCode := some (BitVec.ofInt 16 v) }

/-- R199. -/
def rowTokX (c : List Byte) (w : Work) : Work :=
  tokFloat 0x58 c w fun d v => { d with x := some v }

/-- R200. -/
def rowTokY (c : List Byte) (w : Work) : Work :=
  tokFloat 0x59 c w fun d v => { d with y := some v }

/-- R201. -/
def rowTokZ (c : List Byte) (w : Work) : Work :=
  tokFloat 0x5A c w fun d v => { d with z := some v }

/-- R202. -/
def rowTokE (c : List Byte) (w : Work) : Work :=
  tokFloat 0x45 c w fun d v => { d with e := some v }

/-- R203. -/
def rowTokF (c : List Byte) (w : Work) : Work :=
  tokFloat 0x46 c w fun d v => { d with f := some v }

/-- R204: the value truncated to the field's width (R14). -/
def rowTokT (c : List Byte) (w : Work) : Work :=
  tokInt 0x54 c w fun d v => { d with toolIndex := some (BitVec.ofInt 8 v) }

/-- R205: the value truncated to the field's width (R14). -/
def rowTokS (c : List Byte) (w : Work) : Work :=
  tokInt 0x53 c w fun d v => { d with sValue := some (BitVec.ofInt 32 v) }

/-- R206: the value truncated to the field's width (R14). -/
def rowTokP (c : List Byte) (w : Work) : Work :=
  tokInt 0x50 c w fun d v => { d with pValue := some (BitVec.ofInt 32 v) }

/-- R207. -/
def rowTokI (c : List Byte) (w : Work) : Work :=
  tokFloat 0x49 c w fun d v => { d with i := some v }

/-- R208. -/
def rowTokJ (c : List Byte) (w : Work) : Work :=
  tokFloat 0x4A c w fun d v => { d with j := some v }

/-- R209. -/
def rowTokR (c : List Byte) (w : Work) : Work :=
  tokFloat 0x52 c w fun d v => { d with r := some v }

/-! ## The rows by themselves -/

/-- A row of an ASCII decode run by itself on the `len` bytes of the line in acc. -/
def asciiRow (s : State) (row : List Byte → Work → Work) : Host.Outcome State Fault Refusal :=
  match memBytes s.params.accLen s.acc 0 s.work.len with
  | .ok c => finishRow s (.ok (row c s.work))
  | .error f => .fault f

/-- The row CHECKSUM_STAR by itself. -/
def execChecksumStar (s : State) : Host.Outcome State Fault Refusal := asciiRow s rowChecksumStar

/-- The row TOK_M by itself. -/
def execTokM (s : State) : Host.Outcome State Fault Refusal := asciiRow s rowTokM

/-- The row TOK_N by itself. -/
def execTokN (s : State) : Host.Outcome State Fault Refusal := asciiRow s rowTokN

/-- The row TOK_G by itself. -/
def execTokG (s : State) : Host.Outcome State Fault Refusal := asciiRow s rowTokG

/-- The row TOK_X by itself. -/
def execTokX (s : State) : Host.Outcome State Fault Refusal := asciiRow s rowTokX

/-- The row TOK_Y by itself. -/
def execTokY (s : State) : Host.Outcome State Fault Refusal := asciiRow s rowTokY

/-- The row TOK_Z by itself. -/
def execTokZ (s : State) : Host.Outcome State Fault Refusal := asciiRow s rowTokZ

/-- The row TOK_E by itself. -/
def execTokE (s : State) : Host.Outcome State Fault Refusal := asciiRow s rowTokE

/-- The row TOK_F by itself. -/
def execTokF (s : State) : Host.Outcome State Fault Refusal := asciiRow s rowTokF

/-- The row TOK_T by itself. -/
def execTokT (s : State) : Host.Outcome State Fault Refusal := asciiRow s rowTokT

/-- The row TOK_S by itself. -/
def execTokS (s : State) : Host.Outcome State Fault Refusal := asciiRow s rowTokS

/-- The row TOK_P by itself. -/
def execTokP (s : State) : Host.Outcome State Fault Refusal := asciiRow s rowTokP

/-- The row TOK_I by itself. -/
def execTokI (s : State) : Host.Outcome State Fault Refusal := asciiRow s rowTokI

/-- The row TOK_J by itself. -/
def execTokJ (s : State) : Host.Outcome State Fault Refusal := asciiRow s rowTokJ

/-- The row TOK_R by itself. -/
def execTokR (s : State) : Host.Outcome State Fault Refusal := asciiRow s rowTokR

end Sys2Proof.Machine
end

