-- ==== Sys2Proof/Machine/Queue.lean ====
section
/-! DEFINITION. CommandQueue (spec/45_queue.md): push, PEEK and POP. -/

namespace Sys2Proof.Machine

/-- The index of the next slot to write (R34). -/
def State.tail (s : State) : Nat := (s.head + s.count) % s.params.qcap

/-- `push(rec)` (R290). Its precondition count < QCAP is asserted (notes/assumptions/11.md). -/
def State.push (s : State) (r : Record) : Except Fault State :=
  if s.count < s.params.qcap then
    if s.tail < s.slots.length then
      .ok { s with
        slots := s.slots.set s.tail r
        count := s.count + 1
        payloadBusy := s.payloadBusy || r.hasText }
    else .error (.slotOutside s.tail)
  else .error .pushFull

/-- The text PEEK copies out of acc (R292): `none` for a record without text. -/
def State.peekText (s : State) (r : Record) : Except Fault (Option (List Byte)) :=
  if r.hasText then
    match memBytes s.params.accLen s.acc (r.textStart.getD 0).toNat (r.textLen.getD 0).toNat with
    | .ok t => .ok (some t)
    | .error f => .error f
  else .ok none

/-- PEEK (R292). -/
def execPeek (s : State) : Host.Outcome State Fault Refusal :=
  let s := s.consume
  if s.count = 0 then .next (s.respond .empty)
  else
    match s.slots[s.head]? with
    | none => .fault (.slotOutside s.head)
    | some r =>
      match s.peekText r with
      | .error f => .fault f
      | .ok t => .next { s with peekValid := true, response := .record r.reported t }

/-- POP: with a valid prior PEEK it removes the oldest record (R293), without one it removes nothing and sets
popFault (R294). -/
def execPop (s : State) : Host.Outcome State Fault Refusal :=
  let s := s.consume
  if s.peekValid then
    match s.slots[s.head]? with
    | none => .fault (.slotOutside s.head)
    | some r =>
      .next { s with
        head := (s.head + 1) % s.params.qcap
        count := s.count - 1
        peekValid := false
        payloadBusy := s.payloadBusy && !r.hasText
        response := .ok }
  else .next { s with popFault := true, response := .fault }

end Sys2Proof.Machine
end

