-- ==== Sys2Proof/Machine/Sequencer.lean ====
section
/-! DEFINITION. The Sequencer (spec/43_sequencer.md): line-number continuity and the resend state machine. Its
decode-failure path, FAIL, is `State.fail` of Ops.lean. -/

namespace Sys2Proof.Machine

/-- `M110(rec)` (R232): the line-number reset. -/
def State.lineReset (s : State) (r : Record) : State :=
  { s with
    lastAcceptedLine := if r.numbered then r.line else 0
    awaiting := false
    skipCount := 0
    events := s.events ++ [.acknowledged (if r.numbered then some r.line else none)] }

/-- `UNNUMBERED(rec)` (R233). -/
def State.unnumbered (s : State) (r : Record) : Except Fault State :=
  match s.push r with
  | .ok t => .ok (t.emit (.acknowledged none))
  | .error f => .error f

/-- The registers an in-sequence command writes before it is pushed (R234). -/
def State.advanceTo (s : State) (line : Word) : State :=
  { s with lastAcceptedLine := line, awaiting := false, skipCount := 0 }

/-- `ACCEPT(rec)` (R234). -/
def State.accept (s : State) (r : Record) : Except Fault State :=
  match (s.advanceTo r.line).push r with
  | .ok t => .ok (t.emit (.acknowledged (some r.line)))
  | .error f => .error f

/-- `GAP(rec)` (R235): the command is discarded and a resend asked for. -/
def State.gap (s : State) : State := s.resend

/-- `SKIP(rec)` (R236), with the skip exhaustion of R237. -/
def State.skip (s : State) (r : Record) : State :=
  { s with
    skipCount := s.skipCount - 1
    awaiting := decide (s.skipCount - 1 ≠ 0)
    events := s.events ++ [.lineSkipped r.line, .acknowledged (some r.line)] }

/-- The continuity compare of R230 and R234: the low 16 bits of both sides. -/
def State.inSequence (s : State) (r : Record) : Bool :=
  r.line.extractLsb' 0 16 == (s.lastAcceptedLine + 1).extractLsb' 0 16

/-- The end of a run of failures (R230). -/
def State.clearErrors (s : State) : State := { s with consecutiveFormatErrors := 0 }

/-- `SEQ(rec)` (R230): the branches in RD's order. -/
def State.sequence (s : State) (r : Record) : Except Fault State :=
  if r.isLineReset then .ok (s.clearErrors.lineReset r)
  else if !r.numbered then s.clearErrors.unnumbered r
  else if s.inSequence r then s.clearErrors.accept r
  else if !s.awaiting then .ok s.clearErrors.gap
  else .ok (s.clearErrors.skip r)

end Sys2Proof.Machine
end

