-- ==== Sys2Proof/Machine/MCode.lean ====
section
/-! DEFINITION. The M-code rows of the opcode table: the text capture of the seven members of TEXT_M
(spec/42_field_codec.md R210, R211) and the line-number reset M110 (spec/43_sequencer.md R232). -/

namespace Sys2Proof.Machine

/-- The record with the text slice `start`, `len`. -/
def Record.withText (r : Record) (start len : Nat) : Record :=
  { r with textStart := some (BitVec.ofNat 8 start), textLen := some (BitVec.ofNat 8 len) }

/-- Whether the line is in text mode with this M code. -/
def Work.captures (w : Work) (code : Half) : Bool := w.textMode && w.cmd.mCode == some code

/-- Text capture of one word (R210). -/
def captureWord (code : Half) (c : List Byte) (w : Work) : Work :=
  let start := textStartOf (w.body c) (w.mpos.getD 0)
  if w.captures code then { w with cmd := w.cmd.withText start (textWordLen (w.body c) start) } else w

/-- Text capture to the body's end (R211). -/
def captureRest (code : Half) (c : List Byte) (w : Work) : Work :=
  let start := textStartOf (w.body c) (w.mpos.getD 0)
  if w.captures code then { w with cmd := w.cmd.withText start ((w.body c).length - start) } else w

/-- M23 (R210). -/
def rowM23 (c : List Byte) (w : Work) : Work := captureWord 23 c w
/-- M28 (R210). -/
def rowM28 (c : List Byte) (w : Work) : Work := captureWord 28 c w
/-- M29 (R210). -/
def rowM29 (c : List Byte) (w : Work) : Work := captureWord 29 c w
/-- M30 (R210). -/
def rowM30 (c : List Byte) (w : Work) : Work := captureWord 30 c w
/-- M32 (R210). -/
def rowM32 (c : List Byte) (w : Work) : Work := captureWord 32 c w
/-- M117 (R211). -/
def rowM117 (c : List Byte) (w : Work) : Work := captureRest 117 c w
/-- M3117 (R211). -/
def rowM3117 (c : List Byte) (w : Work) : Work := captureRest 3117 c w

/-- The row M23 by itself. -/
def execM23 (s : State) : Host.Outcome State Fault Refusal := asciiRow s rowM23
/-- The row M28 by itself. -/
def execM28 (s : State) : Host.Outcome State Fault Refusal := asciiRow s rowM28
/-- The row M29 by itself. -/
def execM29 (s : State) : Host.Outcome State Fault Refusal := asciiRow s rowM29
/-- The row M30 by itself. -/
def execM30 (s : State) : Host.Outcome State Fault Refusal := asciiRow s rowM30
/-- The row M32 by itself. -/
def execM32 (s : State) : Host.Outcome State Fault Refusal := asciiRow s rowM32
/-- The row M117 by itself. -/
def execM117 (s : State) : Host.Outcome State Fault Refusal := asciiRow s rowM117
/-- The row M3117 by itself. -/
def execM3117 (s : State) : Host.Outcome State Fault Refusal := asciiRow s rowM3117

/-- The row M110 by itself: the line-number reset (R232) of the record in the model's copy of the decode in progress,
when that record is one. -/
def execM110 (s : State) : Host.Outcome State Fault Refusal :=
  if s.work.cmd.isLineReset then .next (s.consume.lineReset s.work.cmd) else .next s.consume

end Sys2Proof.Machine
end

