-- ==== Sys2Proof/Machine/Codec.lean ====
section
/-! DEFINITION. FieldCodec (spec/42_field_codec.md): binary decode BD (R160), ASCII decode AD with its validation
(R190, R213), and the reference encoder ENC (R220). -/

namespace Sys2Proof.Machine

/-! ## Binary decode -/

/-- Run rows one after another, stopping at a fault. -/
def runRows (w : Work) : List (Work → Except Fault Work) → Except Fault Work
  | [] => .ok w
  | row :: rows =>
    match row w with
    | .ok w' => runRows w' rows
    | .error f => .error f

/-- The header and the fields of R160, in the order it reads them. -/
def binaryRows (size : Nat) (m : List Host.Cell) : List (Work → Except Fault Work) :=
  [rowBf1V1 size m, rowBf1V2 size m,
   rowBf1N size m, rowBf1M size m, rowBf1G size m, rowBf1X size m, rowBf1Y size m, rowBf1Z size m, rowBf1E size m,
   rowBf1F size m, rowBf1T size m, rowBf1S size m, rowBf1P size m, rowBf2I size m, rowBf2J size m, rowBf2R size m,
   fun w => .ok (rowBf1TextV1 w), fun w => .ok (rowBf1TextV2 w),
   fun w => .ok (rowBf1Mark w), fun w => .ok (rowBf1Ext w), fun w => .ok (rowBf1Internal w),
   fun w => .ok (rowBf2Rsv w)]

/-- `BD` (R160) but for the text terminator: the decode of the frame at the start of acc. -/
def binaryDecode (size : Nat) (m : List Host.Cell) : Except Fault Work := runRows {} (binaryRows size m)

/-! ## ASCII decode -/

/-- The rows of R190 in its order: the body's end, M, the other letters, text capture. -/
def asciiRows : List (List Byte → Work → Work) :=
  [rowChecksumStar, rowTokM, rowTokN, rowTokG, rowTokX, rowTokY, rowTokZ, rowTokE, rowTokF, rowTokT, rowTokS, rowTokP,
   rowTokI, rowTokJ, rowTokR, rowM23, rowM28, rowM29, rowM30, rowM32, rowM117, rowM3117]

/-- The masks and rawFormatError, once every field is parsed (R212, R195). -/
def sealRecord (w : Work) : Work :=
  { w with cmd := { w.cmd with
      pm1 := asciiPm1 w.cmd w.textMode
      pm2 := asciiPm2 w.cmd
      rawFormatError := w.fmt } }

/-- `AD` (R190) before its validation, on the stored content of a line. -/
def asciiDecode (c : List Byte) : Work :=
  sealRecord (asciiRows.foldl (fun w row => row c w) { len := c.length })

/-- The checksum step of the validation (R213 step 1): R146 with a '*', R148 without. -/
def checksumFailure (mandatory src : Bool) (w : Work) : Option ErrorKind :=
  if w.star.isSome then (if w.xorBad then some .checksumMismatch else none)
  else if mandatory && !checksumExempt w.cmd src then some .missingChecksum
  else none

/-- ASCII validation (R213): the first failing check decides the kind. -/
def asciiFailure (mandatory src : Bool) (w : Work) : Option ErrorKind :=
  match checksumFailure mandatory src w with
  | some k => some k
  | none =>
    if w.cmd.rawFormatError then some .fieldFormatError
    else if !w.cmd.pm1.getLsbD 1 && !w.cmd.pm1.getLsbD 2 && !w.cmd.pm1.getLsbD 9 then some .missingRequiredField
    else none

/-! ## Encoder -/

/-- The bytes of an item that is there when its bit is set. -/
def bytesIf (present : Bool) (l : List Byte) : List Byte := if present then l else []

/-- An M or G code: two bytes in V2, one in V1 (R220). -/
def codeBytes (v2 : Bool) (c : Half) : List Byte := if v2 then le16 c else [c.extractLsb' 0 8]

/-- The text bytes of a frame (R220): 16, padded with 0x00, in V1; at most 79 in V2. -/
def textBytes (v2 : Bool) (t : List Byte) : List Byte :=
  if v2 then t.take (min t.length (Config.textCap - 1))
  else (t ++ List.replicate Config.textV1 0).take Config.textV1

/-- Everything ENC puts before the checksum (R220). `t` is the record's text. -/
def encodeBody (r : Record) (t : List Byte) : List Byte :=
  let v2 := r.pm1.getLsbD 12
  let bf1 := r.pm1 ||| 0x0080
  le16 bf1
    ++ bytesIf v2 (le16 r.pm2)
    ++ bytesIf (v2 && bf1.getLsbD 15) [BitVec.ofNat 8 (min (r.textLen.getD 0).toNat (Config.textCap - 1))]
    ++ bytesIf (bf1.getLsbD 0) (le16 (r.line.extractLsb' 0 16))
    ++ bytesIf (bf1.getLsbD 1) (codeBytes v2 (r.mCode.getD 0))
    ++ bytesIf (bf1.getLsbD 2) (codeBytes v2 (r.gCode.getD 0))
    ++ bytesIf (bf1.getLsbD 3) (le32 (r.x.getD 0))
    ++ bytesIf (bf1.getLsbD 4) (le32 (r.y.getD 0))
    ++ bytesIf (bf1.getLsbD 5) (le32 (r.z.getD 0))
    ++ bytesIf (bf1.getLsbD 6) (le32 (r.e.getD 0))
    ++ bytesIf (bf1.getLsbD 8) (le32 (r.f.getD 0))
    ++ bytesIf (bf1.getLsbD 9) [r.toolIndex.getD 0]
    ++ bytesIf (bf1.getLsbD 10) (le32 (r.sValue.getD 0))
    ++ bytesIf (bf1.getLsbD 11) (le32 (r.pValue.getD 0))
    ++ bytesIf (v2 && r.pm2.getLsbD 0) (le32 (r.i.getD 0))
    ++ bytesIf (v2 && r.pm2.getLsbD 1) (le32 (r.j.getD 0))
    ++ bytesIf (v2 && r.pm2.getLsbD 2) (le32 (r.r.getD 0))
    ++ bytesIf (bf1.getLsbD 15) (textBytes v2 t)

/-- `ENC(rec)` (R220): the frame of a record and its text. -/
def encodeRecord (r : Record) (t : List Byte) : List Byte :=
  encodeBody r t ++ [(dualSum (encodeBody r t)).1, (dualSum (encodeBody r t)).2]

/-- What R221 asks of a record and its text before it promises the round trip. -/
def encodable (r : Record) (t : List Byte) : Bool :=
  r.matchesMasks && r.pm1.getLsbD 7 && !r.rawFormatError
    && decide (r.line.toNat ≤ 65535)
    && (if r.hasText then decide (r.textLen = some (BitVec.ofNat 8 t.length)) else decide (t = []))
    && (if r.pm1.getLsbD 12 then decide (t.length ≤ 79)
        else r.pm2 == 0 && !above255 r.mCode && !above255 r.gCode && (!r.hasText || decide (t.length = 16)))

end Sys2Proof.Machine
end

