-- ==== Sys2Proof/Machine/Intake.lean ====
section
/-! DEFINITION. IntakeStateMachine (spec/44_intake.md): the BYTE transaction, and the rows of the opcode table that
name a first byte or a structural byte of an ASCII line. -/

namespace Sys2Proof.Machine

/-- The first byte of a command (R263): classification and source. -/
def State.classify (s : State) (b : Byte) (src : Bool) : State :=
  { s with binMode := b.getLsbD 7, frameSrc := src, frameLen := 0 }

/-- Whether the next accepted byte is the first of a command (R263). -/
def State.atCommandStart (s : State) : Bool := s.cursor == 0 && !s.comment

/-- R263 where it applies. -/
def State.classifyFirst (s : State) (b : Byte) (src : Bool) : State :=
  if s.atCommandStart then s.classify b src else s

/-- `acc[cursor] <- b; cursor <- cursor + 1` (R265, R272). -/
def State.storeByte (s : State) (b : Byte) : Except Fault State :=
  match s.storeAcc s.cursor.toNat b with
  | .ok t => .ok { t with cursor := t.cursor + 1 }
  | .error f => .error f

/-! ## Completion -/

/-- The intake registers at binary completion (R267, "and reset"). -/
def State.leaveFrame (s : State) : State := { s with cursor := 0, binMode := false, frameLen := 0 }

/-- The text terminator of a frame of length `l` (R180): acc[l-2] <- 0x00 when bit 15 is set. -/
def State.terminateText (s : State) (w : Work) (l : Nat) : State :=
  if w.bf1.getLsbD 15 then { s with acc := Memory.write s.acc (l - 2) 0 } else s

/-- `BIN_COMPLETE()` (R267) for the frame acc[0..l-1]. A frame too short for its checksum bytes has no acc[l-2]. -/
def State.completeBinary (s : State) (l : Nat) : Except Fault State :=
  if l < 2 then .error (.accOutside l)
  else
    match memBytes s.params.accLen s.acc 0 l with
    | .error f => .error f
    | .ok frame =>
      if !frameValid frame then .ok (s.leaveFrame.fail .checksumMismatch)
      else
        match binaryDecode s.params.accLen s.acc with
        | .error f => .error f
        | .ok w => (s.leaveFrame.terminateText w l).sequence w.cmd

/-- `ASCII_COMPLETE(n)` (R269): decode and validate acc[0..n-1], then SEQ or FAIL. -/
def State.completeAscii (s : State) (n : Nat) : Except Fault State :=
  match memBytes s.params.accLen s.acc 0 n with
  | .error f => .error f
  | .ok c =>
    match asciiFailure s.cfgChecksumMandatory s.frameSrc (asciiDecode c) with
    | some k => .ok (s.fail k)
    | none => s.sequence (asciiDecode c).cmd

/-- A line's end (R269): the line completes if anything is stored, else nothing happens (R270). -/
def State.endLine (s : State) : Except Fault State :=
  if s.cursor = 0 then .ok s else ({ s with cursor := 0 } : State).completeAscii s.cursor.toNat

/-- A terminator inside a comment (R268): it ends the comment, and with it the line. -/
def State.endComment (s : State) : Except Fault State := ({ s with comment := false } : State).endLine

/-- A ';' outside a comment (R273). -/
def State.startComment (s : State) : State := { s with comment := true }

/-- ASCII overflow (R271): the line is discarded, its tail made a comment, and the failure path taken. -/
def State.overflow (s : State) : State := ({ s with cursor := 0, comment := true } : State).fail .fieldFormatError

/-! ## The branches of R260 -/

/-- R266: the frame length, once the header bytes FS.need asks for are stored. -/
def State.learnSize (s : State) : State :=
  let h := Memory.slice s.acc 0 s.cursor.toNat
  if s.frameLen = 0 ∧ 2 ≤ s.cursor.toNat ∧ s.cursor.toNat = fsNeed h then
    match fsSize h with
    | some n => { s with frameLen := BitVec.ofNat 8 n }
    | none => s
  else s

/-- R267: the frame completes at cursor = frameLen. -/
def State.completeIfWhole (s : State) : Except Fault State :=
  if s.frameLen ≠ 0 ∧ s.cursor = s.frameLen then s.completeBinary s.frameLen.toNat else .ok s

/-- A byte of a binary frame (R265 to R267). -/
def State.binaryByte (s : State) (b : Byte) : Except Fault State :=
  match s.storeByte b with
  | .ok t => t.learnSize.completeIfWhole
  | .error f => .error f

/-- A byte of an ASCII line, outside a binary frame (R268 to R273), in R260's order. -/
def State.asciiByte (s : State) (b : Byte) : Except Fault State :=
  if s.comment then (if endsComment b then s.endComment else .ok s)
  else if endsLine b then s.endLine
  else if b = chSemicolon then .ok s.startComment
  else if s.cursor.toNat = s.params.maxCmdLen then .ok s.overflow
  else s.storeByte b

/-- An accepted byte (R260 after its response). -/
def State.intake (s : State) (b : Byte) (src : Bool) : Except Fault State :=
  let t := s.classifyFirst b src
  if t.binMode then t.binaryByte b else t.asciiByte b

/-- Why a byte is refused, if it is (R261): QueueFull before PayloadInUse. -/
def State.refusal (s : State) : Option ErrorKind :=
  if s.count = s.params.qcap then some .queueFull
  else if s.payloadBusy then some .payloadInUse
  else none

/-- BYTE(b, src) (R260). -/
def execByte (b : Byte) (src : Bool) (s : State) : Host.Outcome State Fault Refusal :=
  match s.refusal with
  | some k => .next (s.consume.respond (.refused k))
  | none => finish ((s.consume.respond .accepted).intake b src)

/-! ## First-byte rows -/

/-- The row FIRST_BINARY by itself (R263). -/
def execFirstBinary (b : Byte) (src : Bool) (s : State) : Host.Outcome State Fault Refusal :=
  .next (s.consume.classifyFirst b src)

/-- The row FIRST_ASCII by itself (R263). -/
def execFirstAscii (b : Byte) (src : Bool) (s : State) : Host.Outcome State Fault Refusal :=
  .next (s.consume.classifyFirst b src)

/-! ## Structural bytes of an ASCII line. In a binary frame they are data (R265), and the row does nothing. -/

/-- A terminator that also ends a comment: NUL, LF, CR (R268, R269). -/
def State.hardTerminator (s : State) : Except Fault State :=
  if s.binMode then .ok s else if s.comment then s.endComment else s.endLine

/-- The row TERM_NUL by itself. -/
def execTermNul (s : State) : Host.Outcome State Fault Refusal := finish s.consume.hardTerminator

/-- The row TERM_LF by itself. -/
def execTermLf (s : State) : Host.Outcome State Fault Refusal := finish s.consume.hardTerminator

/-- The row TERM_CR by itself. -/
def execTermCr (s : State) : Host.Outcome State Fault Refusal := finish s.consume.hardTerminator

/-- The row TERM_COLON by itself: a terminator outside a comment only (R93). -/
def execTermColon (s : State) : Host.Outcome State Fault Refusal :=
  if s.binMode || s.comment then .next s.consume else finish s.consume.endLine

/-- The row COMMENT by itself (R273); inside a comment a ';' is dropped (R268). -/
def execComment (s : State) : Host.Outcome State Fault Refusal :=
  if s.binMode || s.comment then .next s.consume else .next s.consume.startComment

end Sys2Proof.Machine
end

