-- ==== Sys2Proof/Machine/Dispatch.lean ====
section
/-! DEFINITION. exec: one arm per instruction, each one call of its meaning. -/

namespace Sys2Proof.Machine

/-- What an instruction does. -/
def exec (i : Instr) (s : State) : Host.Outcome State Fault Refusal :=
  match i with
  | .idle => Sys2Proof.Machine.execIdle s
  | .byte b src => Sys2Proof.Machine.execByte b src s
  | .peek => Sys2Proof.Machine.execPeek s
  | .pop => Sys2Proof.Machine.execPop s
  | .reset => Sys2Proof.Machine.execReset s
  | .cfgWrite v => Sys2Proof.Machine.execCfgWrite v s
  | .status => Sys2Proof.Machine.execStatus s
  | .rsvd7 => Sys2Proof.Machine.execRsvd7 s
  | .firstBinary b src => Sys2Proof.Machine.execFirstBinary b src s
  | .firstAscii b src => Sys2Proof.Machine.execFirstAscii b src s
  | .bf1V1 => Sys2Proof.Machine.execBf1V1 s
  | .bf1V2 => Sys2Proof.Machine.execBf1V2 s
  | .bf1Mark => Sys2Proof.Machine.execBf1Mark s
  | .bf1N => Sys2Proof.Machine.execBf1N s
  | .bf1M => Sys2Proof.Machine.execBf1M s
  | .bf1G => Sys2Proof.Machine.execBf1G s
  | .bf1X => Sys2Proof.Machine.execBf1X s
  | .bf1Y => Sys2Proof.Machine.execBf1Y s
  | .bf1Z => Sys2Proof.Machine.execBf1Z s
  | .bf1E => Sys2Proof.Machine.execBf1E s
  | .bf1F => Sys2Proof.Machine.execBf1F s
  | .bf1T => Sys2Proof.Machine.execBf1T s
  | .bf1S => Sys2Proof.Machine.execBf1S s
  | .bf1P => Sys2Proof.Machine.execBf1P s
  | .bf1Ext => Sys2Proof.Machine.execBf1Ext s
  | .bf1Internal => Sys2Proof.Machine.execBf1Internal s
  | .bf1TextV1 => Sys2Proof.Machine.execBf1TextV1 s
  | .bf1TextV2 => Sys2Proof.Machine.execBf1TextV2 s
  | .bf2I => Sys2Proof.Machine.execBf2I s
  | .bf2J => Sys2Proof.Machine.execBf2J s
  | .bf2R => Sys2Proof.Machine.execBf2R s
  | .bf2Rsv => Sys2Proof.Machine.execBf2Rsv s
  | .tokM => Sys2Proof.Machine.execTokM s
  | .tokN => Sys2Proof.Machine.execTokN s
  | .tokG => Sys2Proof.Machine.execTokG s
  | .tokX => Sys2Proof.Machine.execTokX s
  | .tokY => Sys2Proof.Machine.execTokY s
  | .tokZ => Sys2Proof.Machine.execTokZ s
  | .tokE => Sys2Proof.Machine.execTokE s
  | .tokF => Sys2Proof.Machine.execTokF s
  | .tokT => Sys2Proof.Machine.execTokT s
  | .tokS => Sys2Proof.Machine.execTokS s
  | .tokP => Sys2Proof.Machine.execTokP s
  | .tokI => Sys2Proof.Machine.execTokI s
  | .tokJ => Sys2Proof.Machine.execTokJ s
  | .tokR => Sys2Proof.Machine.execTokR s
  | .termNul => Sys2Proof.Machine.execTermNul s
  | .termLf => Sys2Proof.Machine.execTermLf s
  | .termCr => Sys2Proof.Machine.execTermCr s
  | .termColon => Sys2Proof.Machine.execTermColon s
  | .comment => Sys2Proof.Machine.execComment s
  | .checksumStar => Sys2Proof.Machine.execChecksumStar s
  | .m23 => Sys2Proof.Machine.execM23 s
  | .m28 => Sys2Proof.Machine.execM28 s
  | .m29 => Sys2Proof.Machine.execM29 s
  | .m30 => Sys2Proof.Machine.execM30 s
  | .m32 => Sys2Proof.Machine.execM32 s
  | .m117 => Sys2Proof.Machine.execM117 s
  | .m3117 => Sys2Proof.Machine.execM3117 s
  | .m110 => Sys2Proof.Machine.execM110 s

end Sys2Proof.Machine
end

