-- ==== Sys2Proof/Machine/Step.lean ====
section
/-! DEFINITION. One step: the next port word is decoded and performed (spec/30_encoding.md R80, spec/46_control.md
R310). -/

namespace Sys2Proof.Machine

/-- One step of the block. -/
def step (s : State) : Host.Outcome State Fault Refusal :=
  match decode s.fetch with
  | .ok i => exec i s
  | .error e => .refused (.undecodable e)

/-- The state with a bare word of the opcode table as its next port word (notes/assumptions/1.md, 5.md). -/
def State.withFetchWord (s : State) (nbits w : Nat) : State := { s with port := tableWord nbits w :: s.port }

end Sys2Proof.Machine
end

