-- ==== Sys2Proof/Safety.lean ====
section
/-! DEFINITION. What a good state is (spec/10_state.md R43) and what a step that does not stop is, in the terms the
statements use. -/

namespace Sys2Proof.Machine

/-- The instruction has a next state here. -/
def Completes (i : Instr) (s : State) : Prop := ∃ t, exec i s = .next t

/-- The queued records, oldest first: `count` slots from `head` on, modulo QCAP (R34, R69). -/
def State.queue (s : State) : List Record :=
  (List.range s.count).map fun k => s.slots.getD ((s.head + k) % s.params.qcap) {}

/-- The text slice of a record lies in the accumulator (R64). -/
def Record.textWithin (r : Record) (size : Nat) : Prop :=
  r.hasText = true → (r.textStart.getD 0).toNat + (r.textLen.getD 0).toNat ≤ size

/-- What holds between any two transactions (R43, with the ranges R23 to R34 give the registers). -/
structure State.Inv (s : State) : Prop where
  /-- The parameters are in the ranges of R6, R8 and R10. -/
  params_ok : s.params.ok = true
  /-- acc is in its canonical form. -/
  acc_wf : Memory.wf s.acc = true
  /-- acc has ACC_LEN bytes (R23). -/
  acc_within : ∀ c ∈ s.acc, c.1 < s.params.accLen
  /-- There are QCAP slots (R33). -/
  slots_length : s.slots.length = s.params.qcap
  /-- R43 item 1. -/
  count_le : s.count ≤ s.params.qcap
  /-- R43 item 1. -/
  head_lt : s.head < s.params.qcap
  /-- R43 item 2: payloadBusy exactly when a queued record has text. -/
  busy_iff : s.payloadBusy = s.queue.any Record.hasText
  /-- R43 item 2: the record with text is the youngest. -/
  text_youngest : ∀ r ∈ s.queue.dropLast, r.hasText = false
  /-- R43 item 3. -/
  awaiting_ok : s.awaiting = true → 1 ≤ s.skipCount.toNat ∧ s.skipCount.toNat ≤ s.params.skipCount
    ∧ s.pendingResendLine = s.lastAcceptedLine + 1
  /-- R43 item 3. -/
  synced_ok : s.awaiting = false → s.skipCount = 0
  /-- R43 item 4. -/
  errors_lt : s.consecutiveFormatErrors.toNat < Config.errThreshold
  /-- R43 item 5, and R27: the length is the one FrameSizeCalculator gives for the bytes stored. -/
  frame_ok : s.frameLen ≠ 0 → s.binMode = true ∧ s.cursor.toNat < s.frameLen.toNat
    ∧ fsSize (Memory.slice s.acc 0 s.cursor.toNat) = some s.frameLen.toNat
  /-- R43 item 6. -/
  binary_ok : s.binMode = true → s.comment = false ∧ 1 ≤ s.cursor.toNat
  /-- R266: while the length is not known, fewer bytes are stored than FS.need asks for. -/
  header_ok : s.binMode = true → s.frameLen = 0 →
    s.cursor.toNat = 1 ∨ s.cursor.toNat < fsNeed (Memory.slice s.acc 0 s.cursor.toNat)
  /-- R43 item 7. -/
  ascii_ok : s.binMode = false → s.cursor.toNat ≤ s.params.maxCmdLen
  /-- R43 item 8. -/
  peek_ok : s.peekValid = true → 1 ≤ s.count
  /-- R42, R41: a queued record carries no format error, and has exactly the fields its masks say. -/
  queue_clean : ∀ r ∈ s.queue, r.rawFormatError = false ∧ r.matchesMasks = true
  /-- R64: a queued text lies in acc. -/
  text_within : ∀ r ∈ s.queue, r.textWithin s.params.accLen
  /-- R20: no decode in progress outlives its transaction. -/
  work_idle : s.work = {}
  /-- R80, R81: the environment presents transaction words. -/
  port_ok : ∀ p ∈ s.port, p.space = .transaction ∧ p.word.toNat < 4096

/-- The reports of a decode failure: ChecksumError carries kind 1 or 4 (R336), FormatError kind 2 or 3 (R337). -/
inductive FailureReport : Event → Prop where
  /-- Kind 1. -/
  | checksumMismatch : FailureReport (.checksumError .checksumMismatch)
  /-- Kind 4. -/
  | missingChecksum : FailureReport (.checksumError .missingChecksum)
  /-- Kind 2. -/
  | fieldFormat : FailureReport (.formatError .fieldFormatError)
  /-- Kind 3. -/
  | missingField : FailureReport (.formatError .missingRequiredField)

/-- The event list of a transaction has one of the shapes of R335, or is empty. -/
inductive EventShape : List Event → Prop where
  /-- No command was completed. -/
  | nothing : EventShape []
  /-- M110, unnumbered, or in sequence. -/
  | accepted (l : Option Word) : EventShape [.acknowledged l]
  /-- A gap while Synced. -/
  | gap (l : Word) : EventShape [.resendRequested l]
  /-- A skip while AwaitingResend. -/
  | skipped (l : Word) : EventShape [.lineSkipped l, .acknowledged (some l)]
  /-- A failure below the threshold. -/
  | failed (e : Event) (l : Word) : FailureReport e → EventShape [e, .resendRequested l]
  /-- A failure at the threshold. -/
  | forced (e : Event) (l : Word) : FailureReport e → EventShape [e, .acknowledged (some l)]

/-- A byte would be admitted (R261): the queue is not full and no queued text aliases acc. -/
def State.admits (s : State) : Prop := s.count ≠ s.params.qcap ∧ s.payloadBusy = false

/-- The state after a row of the table has run by itself: the decode in progress is `w`, the word is off the port, no
event was emitted, and nothing else changed. -/
def State.afterRow (s : State) (w : Work) : State := { s with work := w, events := [], port := s.port.tail }

/-- `p` is where FIND(ch, lim) finds the byte (R190): the least index below `lim` that holds it. -/
def FirstAt (ch : Byte) (l : List Byte) (lim p : Nat) : Prop :=
  p < lim ∧ l[p]? = some ch ∧ ∀ q < p, l[q]? ≠ some ch

/-- FIND(ch, lim) finds nothing (R190). -/
def AbsentBelow (ch : Byte) (l : List Byte) (lim : Nat) : Prop := ∀ q < lim, l[q]? ≠ some ch

/-- The stored content of the line whose decode is in progress. -/
def State.content (s : State) : List Byte := Memory.slice s.acc 0 s.work.len

/-- The body of that line (R191). -/
def State.bodyBytes (s : State) : List Byte := s.content.take s.work.bodyEnd

/-- Where the search for a letter other than M ends (R192). -/
def State.searchEnd (s : State) : Nat := if s.work.textMode then s.work.mpos.getD 0 else s.work.bodyEnd

/-- What a line's decode reads for a letter (R190, R192, R195): nothing when the letter is not found below `lim`, else
the value of the number that `parse` finds right after its first occurrence, or nothing when that fails. -/
def LetterReads {α β : Type} (parse : List Byte → Option α) (put : α → β) (ch : Byte) (body : List Byte) (lim : Nat)
    (field : Option β) : Prop :=
  (AbsentBelow ch body lim → field = none) ∧
  ∀ p, FirstAt ch body lim p → field = (parse (body.drop (p + 1))).map put

/-- A letter is found below `lim` and its number fails to parse (R195). -/
def LetterFails {α : Type} (parse : List Byte → Option α) (body : List Byte) (lim : Nat) (ch : Byte) : Prop :=
  ∃ p, FirstAt ch body lim p ∧ parse (body.drop (p + 1)) = none

/-- How the body goes on after an M at `mpos` whose line carries a text (R210, D17): the rest of the M's own word, the
whitespace after it, the text's bytes up to the next SPACE, and what follows them. -/
structure TextParts (body : List Byte) (mpos : Nat) (num gap word rest : List Byte) : Prop where
  /-- The four parts, in order, are all that follows the M. -/
  split : body.drop (mpos + 1) = num ++ gap ++ word ++ rest
  /-- The M is in the body. -/
  inside : mpos < body.length
  /-- No whitespace up to the gap. -/
  num_solid : ∀ b ∈ num, isSpace b = false
  /-- The gap is SPACE and TAB alone. -/
  gap_space : ∀ b ∈ gap, isSpace b = true
  /-- The gap is all the whitespace there. -/
  word_start : ∀ b, word.head? = some b → isSpace b = false
  /-- The text runs to the next SPACE; a TAB in it is part of it. -/
  word_solid : ∀ b ∈ word, b ≠ 0x20
  /-- What follows the text begins with that SPACE. -/
  rest_start : ∀ b, rest.head? = some b → b = 0x20
  /-- Without whitespace after the M's word there is no text. -/
  no_gap : gap = [] → word = []
  /-- Without a text nothing follows the gap. -/
  no_word : word = [] → rest = []

/-- What a token row with an integer does (R192, R193, R195): nothing when the letter is not found, fmt when no number
follows it, else the field `put` writes, and nothing besides. -/
def IntTokenEffect (i : Instr) (ch : Byte) (put : Record → Int → Record) : Prop :=
  ∀ s : State, s.work.len ≤ s.params.accLen →
    (AbsentBelow ch s.bodyBytes s.searchEnd → exec i s = .next (s.afterRow s.work)) ∧
    ∀ p, FirstAt ch s.bodyBytes s.searchEnd p →
      (parseInt (s.bodyBytes.drop (p + 1)) = none → exec i s = .next (s.afterRow { s.work with fmt := true })) ∧
      ∀ v, parseInt (s.bodyBytes.drop (p + 1)) = some v →
        exec i s = .next (s.afterRow { s.work with cmd := put s.work.cmd v })

/-- What a token row with a decimal does (R192, R194, R195). -/
def FloatTokenEffect (i : Instr) (ch : Byte) (put : Record → Word → Record) : Prop :=
  ∀ s : State, s.work.len ≤ s.params.accLen →
    (AbsentBelow ch s.bodyBytes s.searchEnd → exec i s = .next (s.afterRow s.work)) ∧
    ∀ p, FirstAt ch s.bodyBytes s.searchEnd p →
      (parseFloat (s.bodyBytes.drop (p + 1)) = none → exec i s = .next (s.afterRow { s.work with fmt := true })) ∧
      ∀ v, parseFloat (s.bodyBytes.drop (p + 1)) = some v →
        exec i s = .next (s.afterRow { s.work with cmd := put s.work.cmd v })

/-- The value of the `n` bytes of acc from `off` on, the byte at the lower offset the less significant (R62). -/
def State.littleEndian (s : State) (off : Nat) : Nat → Nat
  | 0 => 0
  | n + 1 => (Memory.read s.acc off).toNat + 256 * State.littleEndian s (off + 1) n

/-- What a field row does (R160): with its bit clear it copies the bit into the mask, with its bit set it copies the
bit, reads `n` bytes at `off`, puts their value into the record, and moves `off` past them. -/
def FieldEffect {width : Nat} (i : Instr) (present : State → Bool) (mask : Record → Bool → Record) (n : State → Nat)
    (put : Record → BitVec width → Record) : Prop :=
  ∀ s : State,
    (present s = false → exec i s = .next (s.afterRow { s.work with cmd := mask s.work.cmd false })) ∧
    (present s = true → s.work.off + n s ≤ s.params.accLen →
      ∃ v : BitVec width, v.toNat = s.littleEndian s.work.off (n s) ∧
        exec i s = .next (s.afterRow { s.work with
          off := s.work.off + n s
          cmd := put (mask s.work.cmd true) v }))

/-- The decimal value of a run of digits (R193). -/
def decimalValue (ds : List Byte) : Nat := ds.foldl (fun v d => 10 * v + (d.toNat - 0x30)) 0

/-- An optional sign, and whether it is '-' (R193, R194). -/
def IsSign (sg : List Byte) (neg : Bool) : Prop :=
  (sg = [] ∧ neg = false) ∨ (sg = [0x2B] ∧ neg = false) ∨ (sg = [0x2D] ∧ neg = true)

/-- The bytes go on with no digit. -/
def StopsDigits (l : List Byte) : Prop := ∀ b, l.head? = some b → isDigit b = false

/-- A finite binary32 pattern's value in units of 2^-149, the smallest subnormal: exponent field `b / 2^23`, fraction
`b % 2^23` (R17). -/
def f32Units (b : Nat) : Nat :=
  if b / 2 ^ 23 = 0 then b % 2 ^ 23 else (2 ^ 23 + b % 2 ^ 23) * 2 ^ (b / 2 ^ 23 - 1)

/-- How far that value lies from `num / den`, in units of 2^-149 / den. -/
def f32Distance (num den b : Nat) : Nat := ((f32Units b * den : Int) - (num * 2 ^ 149 : Int)).natAbs

end Sys2Proof.Machine
end

