-- ==== Sys2Proof/Certificates/Slice0/Obligations.lean ====
section
/-! DEFINITION. The statements for the provers, each with the rule of spec/ it formalises. -/

open Sys2Proof Sys2Proof.Machine

/-! ## Words and steps -/

/-- Every well-formed instruction is what its own port word decodes to (spec/30_encoding.md R81, R103). -/
def Obligations.DecodeEncodeAgree : Prop :=
  ∀ i : Instr, i.wf = true → decode (encode i) = .ok i

/-- The transaction word by its bits: tw[2:0] selects the op, tw[11:4] and tw[3] are the byte and its source, data[0] is
the value of CFG_WRITE (R81), and the fields an op does not use decide nothing (R315). -/
def Obligations.TransactionWordByItsBits : Prop :=
  ∀ w : Half, w.toNat < 4096 →
    (w.toNat % 8 = 0 → decode ⟨.transaction, w⟩ = .ok .idle) ∧
    (w.toNat % 8 = 1 → ∃ b src, decode ⟨.transaction, w⟩ = .ok (.byte b src) ∧
      (∀ k < 8, b.getLsbD k = w.getLsbD (k + 4)) ∧ src = w.getLsbD 3) ∧
    (w.toNat % 8 = 2 → decode ⟨.transaction, w⟩ = .ok .peek) ∧
    (w.toNat % 8 = 3 → decode ⟨.transaction, w⟩ = .ok .pop) ∧
    (w.toNat % 8 = 4 → decode ⟨.transaction, w⟩ = .ok .reset) ∧
    (w.toNat % 8 = 5 → decode ⟨.transaction, w⟩ = .ok (.cfgWrite (w.getLsbD 4))) ∧
    (w.toNat % 8 = 6 → decode ⟨.transaction, w⟩ = .ok .status) ∧
    (w.toNat % 8 = 7 → decode ⟨.transaction, w⟩ = .ok .rsvd7)

/-- Words written out from the spec's encodings decode to what they stand for: transaction words of
spec/95_test_vectors.md P1, P4, V-CT-1 to V-CT-4, and one word of each other format of the table; and every bitfield-1
word names a wire form by bits 7 and 12 alone, or none with bit 7 clear (R103). That this is a reading of its own
beside that of the bits is the model's (notes/assumptions/25.md). -/
def Obligations.WrittenOutWordsDecode : Prop :=
  decode ⟨.transaction, 0x4E1⟩ = .ok (.byte 0x4E false) ∧
  decode ⟨.transaction, 0x829⟩ = .ok (.byte 0x82 true) ∧
  decode ⟨.transaction, 0x015⟩ = .ok (.cfgWrite true) ∧
  decode ⟨.transaction, 0x1F5⟩ = .ok (.cfgWrite true) ∧
  decode ⟨.transaction, 0x007⟩ = .ok .rsvd7 ∧
  decode ⟨.transaction, 0x0F0⟩ = .ok .idle ∧
  decode ⟨.firstByte, 0x080⟩ = .ok (.firstBinary 0x80 false) ∧
  (∀ w : Half,
    (w.getLsbD 7 = true → w.getLsbD 12 = false → decode ⟨.wireForm, w⟩ = .ok .bf1V1) ∧
    (w.getLsbD 7 = true → w.getLsbD 12 = true → decode ⟨.wireForm, w⟩ = .ok .bf1V2) ∧
    (w.getLsbD 7 = false → decode ⟨.wireForm, w⟩ = .error (.noRow .wireForm))) ∧
  decode ⟨.bitfield1, 0x0008⟩ = .ok .bf1X ∧
  decode ⟨.bitfield2, 0x0004⟩ = .ok .bf2R ∧
  decode ⟨.asciiToken, 0x4D⟩ = .ok .tokM ∧
  decode ⟨.asciiStruct, 0x3A⟩ = .ok .termColon ∧
  decode ⟨.mcode, 3117⟩ = .ok .m3117

/-- A step performs the word at the port: whatever well-formed instruction it encodes or decodes to, the step is exec
of it; and with nothing at the port the step is IDLE (spec/30_encoding.md R80, spec/46_control.md R310). -/
def Obligations.StepRunsTheDecodedInstruction : Prop :=
  (∀ (s : State) (i : Instr), decode s.fetch = .ok i → step s = exec i s) ∧
  (∀ (s : State) (p : PortWord) (rest : List PortWord), s.port = p :: rest → s.fetch = p) ∧
  (∀ (s : State) (i : Instr) (rest : List PortWord), i.wf = true → s.port = encode i :: rest → step s = exec i s) ∧
  (∀ s : State, s.port = [] → step s = exec .idle s)

/-- Every instruction takes exactly one word off the port, and none changes the build parameters or the number of
slots (R6, R33, R80). -/
def Obligations.EveryStepTakesOneWord : Prop :=
  ∀ (i : Instr) (s t : State), exec i s = .next t →
    t.port = s.port.tail ∧ t.params = s.params ∧ t.slots.length = s.slots.length

/-! ## Reset and control -/

/-- The values of R371 after power-on, and the STATUS words they give. -/
def Obligations.ResetValues : Prop :=
  let s := State.reset
  s.cursor = 0 ∧ s.binMode = false ∧ s.comment = false ∧ s.frameLen = 0 ∧ s.frameSrc = false ∧
  s.lastAcceptedLine = 0 ∧ s.awaiting = false ∧ s.pendingResendLine = 0 ∧ s.skipCount = 0 ∧
  s.consecutiveFormatErrors = 0 ∧ s.head = 0 ∧ s.count = 0 ∧ s.peekValid = false ∧ s.payloadBusy = false ∧
  s.cfgChecksumMandatory = false ∧ s.popFault = false ∧
  s.stat0 = 0 ∧ s.stat1 = 0 ∧ s.stat2 = 0 ∧ s.stat3 = 0

/-- RESET gives every register its reset value, keeps acc and the slots, responds OK and emits nothing (R311). -/
def Obligations.ResetTransaction : Prop :=
  ∀ s : State, ∃ t, exec .reset s = .next t ∧
    t = { State.reset with params := s.params, acc := s.acc, slots := s.slots, port := s.port.tail } ∧
    t.stat0 = 0 ∧ t.stat1 = 0 ∧ t.stat2 = 0 ∧ t.stat3 = 0

/-- IDLE and the reserved op change no register (R84, R310, R314); CFG_WRITE(v) writes cfgChecksumMandatory and nothing
else (R312). All respond OK and emit nothing. -/
def Obligations.IdleReservedAndCfgWrite : Prop :=
  ∀ s : State,
    exec .idle s = .next { s with response := .ok, events := [], port := s.port.tail } ∧
    exec .rsvd7 s = .next { s with response := .ok, events := [], port := s.port.tail } ∧
    ∀ v : Bool, exec (.cfgWrite v) s =
      .next { s with cfgChecksumMandatory := v, response := .ok, events := [], port := s.port.tail }

/-- STATUS answers the four words of R38, field by field, and changes no register (R313). -/
def Obligations.StatusWordsByField : Prop :=
  ∀ s : State, s.count < 256 → s.head < 256 → ∃ w0 w1 w2 w3 : Word,
    exec .status s = .next { s with response := .status w0 w1 w2 w3, events := [], port := s.port.tail } ∧
    (w0.extractLsb' 0 8).toNat = s.count ∧ w0.getLsbD 8 = s.awaiting ∧ w0.getLsbD 9 = s.payloadBusy ∧
    w0.getLsbD 10 = s.peekValid ∧ w0.getLsbD 11 = s.popFault ∧ w0.getLsbD 12 = s.cfgChecksumMandatory ∧
    w0.getLsbD 13 = s.binMode ∧ w0.getLsbD 14 = s.comment ∧ w0.getLsbD 15 = s.frameSrc ∧
    w0.extractLsb' 16 8 = s.cursor ∧ w0.extractLsb' 24 8 = s.frameLen ∧
    w1 = s.lastAcceptedLine ∧ w2 = s.pendingResendLine ∧
    w3.extractLsb' 0 8 = s.skipCount ∧ w3.extractLsb' 8 8 = s.consecutiveFormatErrors ∧
    (w3.extractLsb' 16 8).toNat = s.head ∧ w3.extractLsb' 24 8 = 0

/-! ## Queue -/

/-- PEEK (R292): EMPTY with peekValid unchanged when the queue is empty; else the oldest record with its absent fields
as `none`, and the bytes of its text slice, and peekValid set. -/
def Obligations.PeekReportsTheOldest : Prop :=
  ∀ s : State,
    (s.count = 0 → exec .peek s = .next { s with response := .empty, events := [], port := s.port.tail }) ∧
    (∀ r : Record, s.count ≠ 0 → s.slots[s.head]? = some r → r.textWithin s.params.accLen →
      ∃ (r' : Record) (text : Option (List Byte)),
        exec .peek s = .next { s with
          peekValid := true, response := .record r' text, events := [], port := s.port.tail } ∧
        r'.pm1 = r.pm1 ∧ r'.pm2 = r.pm2 ∧ r'.rawFormatError = r.rawFormatError ∧
        r'.lineNumber = (if r.pm1.getLsbD 0 then r.lineNumber else none) ∧
        r'.mCode = (if r.pm1.getLsbD 1 then r.mCode else none) ∧
        r'.gCode = (if r.pm1.getLsbD 2 then r.gCode else none) ∧
        r'.x = (if r.pm1.getLsbD 3 then r.x else none) ∧
        r'.y = (if r.pm1.getLsbD 4 then r.y else none) ∧
        r'.z = (if r.pm1.getLsbD 5 then r.z else none) ∧
        r'.e = (if r.pm1.getLsbD 6 then r.e else none) ∧
        r'.f = (if r.pm1.getLsbD 8 then r.f else none) ∧
        r'.toolIndex = (if r.pm1.getLsbD 9 then r.toolIndex else none) ∧
        r'.sValue = (if r.pm1.getLsbD 10 then r.sValue else none) ∧
        r'.pValue = (if r.pm1.getLsbD 11 then r.pValue else none) ∧
        r'.i = (if r.pm2.getLsbD 0 then r.i else none) ∧
        r'.j = (if r.pm2.getLsbD 1 then r.j else none) ∧
        r'.r = (if r.pm2.getLsbD 2 then r.r else none) ∧
        r'.textStart = (if r.pm1.getLsbD 15 then r.textStart else none) ∧
        r'.textLen = (if r.pm1.getLsbD 15 then r.textLen else none) ∧
        (r.pm1.getLsbD 15 = false → text = none) ∧
        (r.pm1.getLsbD 15 = true → ∃ l, text = some l ∧ l.length = (r.textLen.getD 0).toNat ∧
          ∀ k < l.length, l[k]? = some (Memory.read s.acc ((r.textStart.getD 0).toNat + k))))

/-- POP with a valid prior PEEK removes the record at head (R293); without one it removes nothing, sets popFault and
responds FAULT (R294). -/
def Obligations.PopRemovesThePeekedOrFaults : Prop :=
  ∀ s : State,
    (∀ r : Record, s.peekValid = true → s.slots[s.head]? = some r →
      exec .pop s = .next { s with
        head := (s.head + 1) % s.params.qcap
        count := s.count - 1
        peekValid := false
        payloadBusy := if r.pm1.getLsbD 15 then false else s.payloadBusy
        response := .ok
        events := []
        port := s.port.tail }) ∧
    (s.peekValid = false →
      exec .pop s = .next { s with popFault := true, response := .fault, events := [], port := s.port.tail })

/-- The queue is strictly FIFO (spec/20_memory.md R69): from a good state, a BYTE leaves it or appends one record, PEEK
answers its first record, POP after a PEEK drops the first, RESET empties it, and the other transactions leave it. -/
def Obligations.QueueIsFifo : Prop :=
  ∀ s t : State, s.Inv →
    (∀ b src, exec (.byte b src) s = .next t → t.queue = s.queue ∨ ∃ r, t.queue = s.queue ++ [r]) ∧
    (exec .peek s = .next t → t.queue = s.queue ∧
      ∀ r rest, s.queue = r :: rest → ∃ text, t.response = .record r text) ∧
    (exec .pop s = .next t → t.queue = if s.peekValid then s.queue.tail else s.queue) ∧
    (exec .reset s = .next t → t.queue = []) ∧
    (exec .idle s = .next t → t.queue = s.queue) ∧
    (∀ v, exec (.cfgWrite v) s = .next t → t.queue = s.queue) ∧
    (exec .status s = .next t → t.queue = s.queue) ∧
    (exec .rsvd7 s = .next t → t.queue = s.queue)

/-! ## Intake -/

/-- Admission (R261): a full queue refuses with QueueFull, else a text in use refuses with PayloadInUse, and then
nothing but the outputs changes; otherwise the byte is accepted. -/
def Obligations.AdmissionOfBytes : Prop :=
  ∀ (b : Byte) (src : Bool) (s : State),
    (s.count = s.params.qcap → exec (.byte b src) s =
      .next { s with response := .refused .queueFull, events := [], port := s.port.tail }) ∧
    (s.count ≠ s.params.qcap → s.payloadBusy = true → exec (.byte b src) s =
      .next { s with response := .refused .payloadInUse, events := [], port := s.port.tail }) ∧
    (s.admits → ∀ t, exec (.byte b src) s = .next t → t.response = .accepted)

/-- The first byte of a command sets binMode from its bit 7, frameSrc from its source and frameLen to 0; where the
next byte is not a first byte the row changes nothing (R263). -/
def Obligations.FirstByteRowsClassify : Prop :=
  ∀ (b : Byte) (src : Bool) (s : State),
    (s.cursor = 0 → s.comment = false →
      ((Instr.firstBinary b src).wf = true → exec (.firstBinary b src) s = .next { s with
        binMode := true, frameSrc := src, frameLen := 0, events := [], port := s.port.tail }) ∧
      ((Instr.firstAscii b src).wf = true → exec (.firstAscii b src) s = .next { s with
        binMode := false, frameSrc := src, frameLen := 0, events := [], port := s.port.tail })) ∧
    (s.cursor ≠ 0 ∨ s.comment = true →
      exec (.firstBinary b src) s = .next { s with events := [], port := s.port.tail } ∧
      exec (.firstAscii b src) s = .next { s with events := [], port := s.port.tail })

/-- The source of a command's later bytes is ignored (R264). -/
def Obligations.LaterSourcesAreIgnored : Prop :=
  ∀ (b : Byte) (src src' : Bool) (s : State), s.cursor ≠ 0 ∨ s.comment = true →
    exec (.byte b src) s = exec (.byte b src') s

/-- A byte of an ASCII line that is no terminator, no ';' and does not overflow is stored at the cursor (R272); as a
first byte it also sets the source (R263). -/
def Obligations.AsciiByteIsStored : Prop :=
  ∀ (b : Byte) (src : Bool) (s : State), s.admits → Memory.wf s.acc = true → s.comment = false →
    (s.cursor = 0 → b.getLsbD 7 = false) → (s.cursor ≠ 0 → s.binMode = false) →
    b ≠ 0x00 → b ≠ 0x0A → b ≠ 0x0D → b ≠ 0x3A → b ≠ 0x3B →
    s.cursor.toNat ≠ s.params.maxCmdLen → s.cursor.toNat < s.params.accLen →
    ∃ t, exec (.byte b src) s = .next t ∧
      (∀ a, Memory.read t.acc a = if a = s.cursor.toNat then b else Memory.read s.acc a) ∧
      { t with acc := s.acc } = { s with
        cursor := s.cursor + 1
        binMode := false
        frameSrc := if s.cursor = 0 then src else s.frameSrc
        frameLen := if s.cursor = 0 then 0 else s.frameLen
        response := .accepted
        events := []
        port := s.port.tail }

/-- Any byte of a binary frame that does not settle its length or end it is stored at the cursor (R265): the first
byte, and a later one once the length is known. -/
def Obligations.BinaryByteIsStored : Prop :=
  ∀ (b : Byte) (src : Bool) (s : State), s.admits → Memory.wf s.acc = true → s.comment = false →
    s.cursor.toNat < s.params.accLen →
    ((s.cursor = 0 ∧ b.getLsbD 7 = true) ∨
      (s.cursor ≠ 0 ∧ s.binMode = true ∧ s.frameLen ≠ 0 ∧ s.cursor + 1 ≠ s.frameLen)) →
    ∃ t, exec (.byte b src) s = .next t ∧
      (∀ a, Memory.read t.acc a = if a = s.cursor.toNat then b else Memory.read s.acc a) ∧
      { t with acc := s.acc } = { s with
        cursor := s.cursor + 1
        binMode := true
        frameSrc := if s.cursor = 0 then src else s.frameSrc
        frameLen := if s.cursor = 0 then 0 else s.frameLen
        response := .accepted
        events := []
        port := s.port.tail }

/-- The header of a binary frame (R266): the byte that completes the header FS.need asks for sets frameLen to FS.size
of it; an earlier one leaves frameLen 0. -/
def Obligations.HeaderByteSetsFrameLength : Prop :=
  ∀ (b : Byte) (src : Bool) (s : State), s.admits → Memory.wf s.acc = true → s.binMode = true → s.comment = false →
    s.frameLen = 0 → 1 ≤ s.cursor.toNat → s.cursor.toNat < 5 →
    let h := Memory.slice s.acc 0 s.cursor.toNat ++ [b]
    ∃ t, exec (.byte b src) s = .next t ∧
      (∀ a, Memory.read t.acc a = if a = s.cursor.toNat then b else Memory.read s.acc a) ∧
      (h.length = fsNeed h → fsSize h = some t.frameLen.toNat) ∧
      (h.length ≠ fsNeed h → t.frameLen = 0) ∧
      { t with acc := s.acc, frameLen := 0 } = { s with
        cursor := s.cursor + 1, response := .accepted, events := [], port := s.port.tail }

/-- The last byte of a binary frame (R267): the frame is handed off whole, the intake registers return to 0; a frame
whose last two bytes differ from the dual-sum of the others fails with ChecksumMismatch (R143), a frame whose last two
bytes equal it is decoded, its text terminated (R180) and its record sequenced. -/
def Obligations.BinaryFrameCompletes : Prop :=
  ∀ (b : Byte) (src : Bool) (s : State), s.payloadBusy = false → s.count < s.params.qcap →
    s.slots.length = s.params.qcap → Memory.wf s.acc = true → s.binMode = true → s.comment = false →
    s.cursor ≠ 0 → s.cursor.toNat + 1 = s.frameLen.toNat → 4 ≤ s.frameLen.toNat →
    s.frameLen.toNat ≤ s.params.accLen →
    let m := Memory.write s.acc s.cursor.toNat b
    let len := s.frameLen.toNat
    let sums := dualSum (Memory.slice m 0 (len - 2))
    let s0 : State := { s with
      acc := m, cursor := 0, binMode := false, frameLen := 0
      response := .accepted, events := [], port := s.port.tail }
    (¬ (Memory.read m (len - 2) = sums.1 ∧ Memory.read m (len - 1) = sums.2) →
      exec (.byte b src) s = .next (s0.fail .checksumMismatch)) ∧
    (Memory.read m (len - 2) = sums.1 → Memory.read m (len - 1) = sums.2 →
      ∃ (w : Work) (t : State), binaryDecode s.params.accLen m = .ok w ∧
        ({ s0 with acc := if w.bf1.getLsbD 15 then Memory.write m (len - 2) 0 else m } : State).sequence w.cmd
          = .ok t ∧
        exec (.byte b src) s = .next t)

/-- A ';' outside a comment sets comment, stores nothing and leaves the cursor (R273): the BYTE and its row. Inside a
comment every byte but NUL, LF and CR is dropped (R268). That the row runs by itself, and does nothing inside a comment
or in a binary frame, where a ';' is data (R265), is the model's (notes/assumptions/20.md). -/
def Obligations.CommentsAreSuppressed : Prop :=
  ∀ s : State,
    (s.binMode = false → s.comment = false →
      exec .comment s = .next { s with comment := true, events := [], port := s.port.tail }) ∧
    (s.binMode = true ∨ s.comment = true →
      exec .comment s = .next { s with events := [], port := s.port.tail }) ∧
    (∀ src, s.admits → s.comment = false → s.cursor ≠ 0 → s.binMode = false →
      exec (.byte 0x3B src) s =
        .next { s with comment := true, response := .accepted, events := [], port := s.port.tail }) ∧
    (∀ src, s.admits → s.comment = false → s.cursor = 0 →
      exec (.byte 0x3B src) s = .next { s with
        binMode := false, frameSrc := src, frameLen := 0
        comment := true, response := .accepted, events := [], port := s.port.tail }) ∧
    (∀ (b : Byte) (src : Bool), s.admits → s.comment = true → s.binMode = false →
      b ≠ 0x00 → b ≠ 0x0A → b ≠ 0x0D →
      exec (.byte b src) s = .next { s with response := .accepted, events := [], port := s.port.tail })

/-- A terminator with nothing stored completes nothing and emits nothing (R270): a comment ends, nothing else happens.
So do the BYTE with each of the terminator bytes, which outside a comment also passes through R263, and the four rows
run by themselves, without R263 and without a response: what those rows do is the model's
(notes/assumptions/20.md). -/
def Obligations.EmptyLineIsIgnored : Prop :=
  ∀ s : State, s.cursor = 0 →
    (s.binMode = false →
      exec .termNul s = .next { s with comment := false, events := [], port := s.port.tail } ∧
      exec .termLf s = .next { s with comment := false, events := [], port := s.port.tail } ∧
      exec .termCr s = .next { s with comment := false, events := [], port := s.port.tail } ∧
      exec .termColon s = .next { s with events := [], port := s.port.tail }) ∧
    (∀ (b : Byte) (src : Bool), s.admits → s.comment = false → b = 0x00 ∨ b = 0x0A ∨ b = 0x0D ∨ b = 0x3A →
      exec (.byte b src) s = .next { s with
        binMode := false, frameSrc := src, frameLen := 0
        response := .accepted, events := [], port := s.port.tail }) ∧
    (∀ (b : Byte) (src : Bool), s.admits → s.comment = true → s.binMode = false →
      b = 0x00 ∨ b = 0x0A ∨ b = 0x0D →
      exec (.byte b src) s = .next { s with
        comment := false, response := .accepted, events := [], port := s.port.tail })

/-- A terminator after stored bytes completes the line (R269, and R268 inside a comment): the stored content is decoded
and validated, then sequenced or failed. The four rows; ':' outside a comment only, and none in a binary frame. -/
def Obligations.TerminatorRowsCompleteTheLine : Prop :=
  ∀ (i : Instr) (s : State), i = .termNul ∨ i = .termLf ∨ i = .termCr ∨ i = .termColon →
    (s.binMode = true ∨ (i = .termColon ∧ s.comment = true) →
      exec i s = .next { s with events := [], port := s.port.tail }) ∧
    (s.binMode = false → (i = .termColon → s.comment = false) → s.cursor ≠ 0 → s.cursor.toNat ≤ s.params.accLen →
      s.count < s.params.qcap → s.slots.length = s.params.qcap →
      let w := asciiDecode (Memory.slice s.acc 0 s.cursor.toNat)
      let s0 : State := { s with comment := false, cursor := 0, events := [], port := s.port.tail }
      (∀ k, asciiFailure s.cfgChecksumMandatory s.frameSrc w = some k → exec i s = .next (s0.fail k)) ∧
      (asciiFailure s.cfgChecksumMandatory s.frameSrc w = none →
        ∃ t, s0.sequence w.cmd = .ok t ∧ exec i s = .next t))

/-- The same of the BYTE that carries the terminator (R268, R269). -/
def Obligations.TerminatorByteCompletesTheLine : Prop :=
  ∀ (b : Byte) (src : Bool) (s : State), s.payloadBusy = false → s.count < s.params.qcap →
    s.slots.length = s.params.qcap →
    b = 0x00 ∨ b = 0x0A ∨ b = 0x0D ∨ (b = 0x3A ∧ s.comment = false) →
    s.binMode = false → s.cursor ≠ 0 → s.cursor.toNat ≤ s.params.accLen →
    let w := asciiDecode (Memory.slice s.acc 0 s.cursor.toNat)
    let s0 : State := { s with
      comment := false, cursor := 0, response := .accepted, events := [], port := s.port.tail }
    (∀ k, asciiFailure s.cfgChecksumMandatory s.frameSrc w = some k → exec (.byte b src) s = .next (s0.fail k)) ∧
    (asciiFailure s.cfgChecksumMandatory s.frameSrc w = none →
      ∃ t, s0.sequence w.cmd = .ok t ∧ exec (.byte b src) s = .next t)

/-- ASCII overflow (R271): the line is discarded, its tail becomes a comment, and FAIL(FieldFormatError) runs. -/
def Obligations.AsciiOverflowFails : Prop :=
  ∀ (b : Byte) (src : Bool) (s : State), s.admits → s.comment = false → s.cursor ≠ 0 → s.binMode = false →
    b ≠ 0x00 → b ≠ 0x0A → b ≠ 0x0D → b ≠ 0x3A → b ≠ 0x3B → s.cursor.toNat = s.params.maxCmdLen →
    exec (.byte b src) s = .next (({ s with
      cursor := 0, comment := true, response := .accepted, events := [], port := s.port.tail } : State).fail
        .fieldFormatError)

/-! ## Sequencer -/

/-- The line-number reset (R232): in the Sequencer, after the counter reset of R230, and the row M110 by itself, on the
record of the decode in progress, which does nothing when that record is no line-number reset. What the row does by
itself is the model's (notes/assumptions/17.md). -/
def Obligations.LineNumberReset : Prop :=
  (∀ (s : State) (r : Record), r.pm1.getLsbD 1 = true → r.mCode = some 110 →
    s.sequence r = .ok { s with
      consecutiveFormatErrors := 0
      lastAcceptedLine := if r.pm1.getLsbD 0 then r.line else 0
      awaiting := false
      skipCount := 0
      events := s.events ++ [.acknowledged (if r.pm1.getLsbD 0 then some r.line else none)] }) ∧
  ∀ s : State,
    (s.work.cmd.pm1.getLsbD 1 = true → s.work.cmd.mCode = some 110 →
      exec .m110 s = .next { s with
        lastAcceptedLine := if s.work.cmd.pm1.getLsbD 0 then s.work.cmd.line else 0
        awaiting := false
        skipCount := 0
        events := [.acknowledged (if s.work.cmd.pm1.getLsbD 0 then some s.work.cmd.line else none)]
        port := s.port.tail }) ∧
    (s.work.cmd.pm1.getLsbD 1 = false ∨ s.work.cmd.mCode ≠ some 110 →
      exec .m110 s = .next { s with events := [], port := s.port.tail })

/-- A command without a line number is pushed and acknowledged, whatever the Sequencer's state (R233). -/
def Obligations.SequencerUnnumbered : Prop :=
  ∀ (s : State) (r : Record), (r.pm1.getLsbD 1 = false ∨ r.mCode ≠ some 110) → r.pm1.getLsbD 0 = false →
    s.count < s.params.qcap → s.slots.length = s.params.qcap →
    s.sequence r = .ok { s with
      consecutiveFormatErrors := 0
      slots := s.slots.set ((s.head + s.count) % s.params.qcap) r
      count := s.count + 1
      payloadBusy := s.payloadBusy || r.pm1.getLsbD 15
      events := s.events ++ [.acknowledged none] }

/-- A command whose number is the expected one, modulo 65536, is accepted and pushed (R234). -/
def Obligations.SequencerInSequence : Prop :=
  ∀ (s : State) (r : Record), (r.pm1.getLsbD 1 = false ∨ r.mCode ≠ some 110) → r.pm1.getLsbD 0 = true →
    r.line.toNat % 65536 = (s.lastAcceptedLine + 1).toNat % 65536 →
    s.count < s.params.qcap → s.slots.length = s.params.qcap →
    s.sequence r = .ok { s with
      consecutiveFormatErrors := 0
      lastAcceptedLine := r.line
      awaiting := false
      skipCount := 0
      slots := s.slots.set ((s.head + s.count) % s.params.qcap) r
      count := s.count + 1
      payloadBusy := s.payloadBusy || r.pm1.getLsbD 15
      events := s.events ++ [.acknowledged (some r.line)] }

/-- A command out of sequence: while Synced it is discarded and a resend asked for (R235, R238); while AwaitingResend it
is skipped and acknowledged, and the skip counter's end resynchronises (R236, R237). -/
def Obligations.SequencerOutOfSequence : Prop :=
  ∀ (s : State) (r : Record), (r.pm1.getLsbD 1 = false ∨ r.mCode ≠ some 110) → r.pm1.getLsbD 0 = true →
    r.line.toNat % 65536 ≠ (s.lastAcceptedLine + 1).toNat % 65536 →
    (s.awaiting = false → s.sequence r = .ok { s with
      consecutiveFormatErrors := 0
      pendingResendLine := s.lastAcceptedLine + 1
      awaiting := true
      skipCount := BitVec.ofNat 8 s.params.skipCount
      events := s.events ++ [.resendRequested (s.lastAcceptedLine + 1)] }) ∧
    (s.awaiting = true → s.sequence r = .ok { s with
      consecutiveFormatErrors := 0
      skipCount := s.skipCount - 1
      awaiting := if s.skipCount - 1 = 0 then false else true
      events := s.events ++ [.lineSkipped r.line, .acknowledged (some r.line)] })

/-- The decode-failure path (R240): its event, then below the threshold a resend (R238), at it a force-accept (R242). -/
def Obligations.FailurePath : Prop :=
  ∀ (s : State) (k : ErrorKind) (e : Event),
    ((k = .checksumMismatch ∨ k = .missingChecksum) ∧ e = .checksumError k ∨
      (k = .fieldFormatError ∨ k = .missingRequiredField) ∧ e = .formatError k) →
    (s.consecutiveFormatErrors.toNat < 2 → s.fail k = { s with
      consecutiveFormatErrors := s.consecutiveFormatErrors + 1
      pendingResendLine := s.lastAcceptedLine + 1
      awaiting := true
      skipCount := BitVec.ofNat 8 s.params.skipCount
      events := s.events ++ [e, .resendRequested (s.lastAcceptedLine + 1)] }) ∧
    (s.consecutiveFormatErrors.toNat = 2 → s.fail k = { s with
      consecutiveFormatErrors := 0
      lastAcceptedLine := s.lastAcceptedLine + 1
      awaiting := false
      skipCount := 0
      events := s.events ++ [e, .acknowledged (some (s.lastAcceptedLine + 1))] })

/-- Three failures in a row from a clear counter (R244): two resend requests, then a force-accept with the counter back
at 0, the line advanced, the state Synced, and nothing queued. -/
def Obligations.ThirdFailureForcesAcceptance : Prop :=
  ∀ (s : State) (k1 k2 k3 : ErrorKind), s.consecutiveFormatErrors = 0 →
    let s1 := s.fail k1
    let s2 := s1.fail k2
    let s3 := s2.fail k3
    let line := s.lastAcceptedLine + 1
    s1.consecutiveFormatErrors = 1 ∧ s2.consecutiveFormatErrors = 2 ∧ s3.consecutiveFormatErrors = 0 ∧
    s1.awaiting = true ∧ s2.awaiting = true ∧ s3.awaiting = false ∧
    s3.lastAcceptedLine = line ∧ s3.count = s.count ∧ s3.slots = s.slots ∧
    s3.events = s.events ++ [failureEvent k1, .resendRequested line, failureEvent k2, .resendRequested line,
      failureEvent k3, .acknowledged (some line)]

/-- Resend recovery (R243): after line 3, line 5 asks for line 4 and is not queued, then 4 and 5 are queued in order. -/
def Obligations.ResendRecovery : Prop :=
  ∀ (s : State) (r4 r5 : Record), s.awaiting = false → s.lastAcceptedLine = 3 → s.events = [] →
    s.head < s.params.qcap → s.count + 2 ≤ s.params.qcap → s.slots.length = s.params.qcap →
    r4.pm1.getLsbD 0 = true → r4.pm1.getLsbD 1 = false → r4.lineNumber = some 4 →
    r5.pm1.getLsbD 0 = true → r5.pm1.getLsbD 1 = false → r5.lineNumber = some 5 →
    ∃ s1 s2 s3, s.sequence r5 = .ok s1 ∧ s1.sequence r4 = .ok s2 ∧ s2.sequence r5 = .ok s3 ∧
      s1.awaiting = true ∧ s1.pendingResendLine = 4 ∧ s1.queue = s.queue ∧
      s2.awaiting = false ∧ s2.lastAcceptedLine = 4 ∧ s3.lastAcceptedLine = 5 ∧
      s3.queue = s.queue ++ [r4, r5] ∧
      s3.events = [.resendRequested 4, .acknowledged (some 4), .acknowledged (some 5)]

/-! ## Rules about every instruction -/

/-- The event list of any instruction is empty or one of the five lists of R335: a skip acknowledges the line it
reports, and a failure reports ChecksumError with kind 1 or 4 or FormatError with kind 2 or 3 (R336, R337). -/
def Obligations.EventListsHaveTheirShapes : Prop :=
  ∀ (i : Instr) (s t : State), exec i s = .next t → EventShape t.events

/-- The accumulator is written only by BYTE (R60), and not even by BYTE while a queued text aliases it (R73). -/
def Obligations.OnlyAdmittedBytesWriteTheAccumulator : Prop :=
  ∀ (i : Instr) (s t : State), exec i s = .next t →
    ((∀ b src, i ≠ .byte b src) ∨ s.payloadBusy = true ∨ s.count = s.params.qcap) → t.acc = s.acc

/-- Who writes the sequencing registers (R29 to R32): every instruction but BYTE, RESET, the four terminator rows and
M110 leaves them and emits nothing, and so does every instruction but RESET whose event list is empty, a BYTE or a
terminator that completes nothing among them. -/
def Obligations.SequencingStateHasFewWriters : Prop :=
  ∀ (i : Instr) (s t : State), exec i s = .next t → i ≠ .reset →
    ((∀ b src, i ≠ .byte b src) → i ≠ .termNul → i ≠ .termLf → i ≠ .termCr → i ≠ .termColon → i ≠ .m110 →
      t.events = []) ∧
    (t.events = [] →
      t.lastAcceptedLine = s.lastAcceptedLine ∧ t.awaiting = s.awaiting ∧
      t.pendingResendLine = s.pendingResendLine ∧ t.skipCount = s.skipCount ∧
      t.consecutiveFormatErrors = s.consecutiveFormatErrors)

/-- The control bits and the queue's head have few writers: popFault is set by POP and cleared by RESET alone (R37),
cfgChecksumMandatory is written by CFG_WRITE and RESET (R36), peekValid by PEEK, POP and RESET (R35), head by POP and
RESET (R34). -/
def Obligations.ControlBitsHaveFewWriters : Prop :=
  ∀ (i : Instr) (s t : State), exec i s = .next t → i ≠ .reset →
    (s.popFault = true → t.popFault = true) ∧
    (i ≠ .pop → t.popFault = s.popFault ∧ t.head = s.head) ∧
    ((∀ v, i ≠ .cfgWrite v) → t.cfgChecksumMandatory = s.cfgChecksumMandatory) ∧
    (i ≠ .peek → i ≠ .pop → t.peekValid = s.peekValid)

/-! ## Binary decode, row by row -/

/-- The header is read as R161 to R163 say. That the V1 row reads a header with bit 12 clear and the V2 row one with
bit 12 set, and that each leaves the other's frames alone, is the model's (notes/assumptions/15.md). -/
def Obligations.HeaderRows : Prop :=
  ∀ s : State, ∃ bf1 bf2 : Half,
    bf1.toNat = s.littleEndian 0 2 ∧ bf2.toNat = s.littleEndian 2 2 ∧
    (bf1.getLsbD 12 = false →
      exec .bf1V1 s = .next (s.afterRow { s.work with
        bf1 := bf1, bf2 := 0, tl := none, off := 2, cmd := { pm1 := bf1 } }) ∧
      exec .bf1V2 s = .next (s.afterRow s.work)) ∧
    (bf1.getLsbD 12 = true →
      exec .bf1V1 s = .next (s.afterRow s.work) ∧
      exec .bf1V2 s = .next (s.afterRow { s.work with
        bf1 := bf1
        bf2 := bf2
        tl := if bf1.getLsbD 15 then some (Memory.read s.acc 4) else none
        off := if bf1.getLsbD 15 then 5 else 4
        cmd := { pm1 := bf1, pm2 := bf2 } }))

/-- The marker and reserved bits are copied into the masks and have no other effect (R181). -/
def Obligations.MarkerRows : Prop :=
  ∀ s : State, ∃ m7 m13 m14 m2 : Half,
    exec .bf1Mark s = .next (s.afterRow { s.work with cmd := { s.work.cmd with pm1 := m7 } }) ∧
    exec .bf1Ext s = .next (s.afterRow { s.work with cmd := { s.work.cmd with pm1 := m13 } }) ∧
    exec .bf1Internal s = .next (s.afterRow { s.work with cmd := { s.work.cmd with pm1 := m14 } }) ∧
    exec .bf2Rsv s = .next (s.afterRow { s.work with cmd := { s.work.cmd with pm2 := m2 } }) ∧
    ∀ k < 16,
      m7.getLsbD k = (if k = 7 then s.work.bf1.getLsbD k else s.work.cmd.pm1.getLsbD k) ∧
      m13.getLsbD k = (if k = 13 then s.work.bf1.getLsbD k else s.work.cmd.pm1.getLsbD k) ∧
      m14.getLsbD k = (if k = 14 then s.work.bf1.getLsbD k else s.work.cmd.pm1.getLsbD k) ∧
      m2.getLsbD k = (if 3 ≤ k then s.work.bf2.getLsbD k else s.work.cmd.pm2.getLsbD k)

/-- The line number and the M and G codes (R164 to R166): two bytes for N, and for M and G one in V1 and two in V2,
zero-extended. -/
def Obligations.NumberFieldRows : Prop :=
  FieldEffect (width := 32) .bf1N (fun s => s.work.bf1.getLsbD 0)
    (fun c v => { c with pm1 := if v then c.pm1 ||| 0x0001 else c.pm1 &&& 0xFFFE }) (fun _ => 2)
    (fun c v => { c with lineNumber := some v }) ∧
  FieldEffect (width := 16) .bf1M (fun s => s.work.bf1.getLsbD 1)
    (fun c v => { c with pm1 := if v then c.pm1 ||| 0x0002 else c.pm1 &&& 0xFFFD })
    (fun s => if s.work.bf1.getLsbD 12 then 2 else 1) (fun c v => { c with mCode := some v }) ∧
  FieldEffect (width := 16) .bf1G (fun s => s.work.bf1.getLsbD 2)
    (fun c v => { c with pm1 := if v then c.pm1 ||| 0x0004 else c.pm1 &&& 0xFFFB })
    (fun s => if s.work.bf1.getLsbD 12 then 2 else 1) (fun c v => { c with gCode := some v })

/-- The float fields, the tool index and the two's-complement fields S and P of bitfield-1 (R167 to R174): the bits are
moved unchanged, one byte for T and four for every other. -/
def Obligations.ValueFieldRows : Prop :=
  FieldEffect (width := 32) .bf1X (fun s => s.work.bf1.getLsbD 3)
    (fun c v => { c with pm1 := if v then c.pm1 ||| 0x0008 else c.pm1 &&& 0xFFF7 }) (fun _ => 4)
    (fun c v => { c with x := some v }) ∧
  FieldEffect (width := 32) .bf1Y (fun s => s.work.bf1.getLsbD 4)
    (fun c v => { c with pm1 := if v then c.pm1 ||| 0x0010 else c.pm1 &&& 0xFFEF }) (fun _ => 4)
    (fun c v => { c with y := some v }) ∧
  FieldEffect (width := 32) .bf1Z (fun s => s.work.bf1.getLsbD 5)
    (fun c v => { c with pm1 := if v then c.pm1 ||| 0x0020 else c.pm1 &&& 0xFFDF }) (fun _ => 4)
    (fun c v => { c with z := some v }) ∧
  FieldEffect (width := 32) .bf1E (fun s => s.work.bf1.getLsbD 6)
    (fun c v => { c with pm1 := if v then c.pm1 ||| 0x0040 else c.pm1 &&& 0xFFBF }) (fun _ => 4)
    (fun c v => { c with e := some v }) ∧
  FieldEffect (width := 32) .bf1F (fun s => s.work.bf1.getLsbD 8)
    (fun c v => { c with pm1 := if v then c.pm1 ||| 0x0100 else c.pm1 &&& 0xFEFF }) (fun _ => 4)
    (fun c v => { c with f := some v }) ∧
  FieldEffect (width := 8) .bf1T (fun s => s.work.bf1.getLsbD 9)
    (fun c v => { c with pm1 := if v then c.pm1 ||| 0x0200 else c.pm1 &&& 0xFDFF }) (fun _ => 1)
    (fun c v => { c with toolIndex := some v }) ∧
  FieldEffect (width := 32) .bf1S (fun s => s.work.bf1.getLsbD 10)
    (fun c v => { c with pm1 := if v then c.pm1 ||| 0x0400 else c.pm1 &&& 0xFBFF }) (fun _ => 4)
    (fun c v => { c with sValue := some v }) ∧
  FieldEffect (width := 32) .bf1P (fun s => s.work.bf1.getLsbD 11)
    (fun c v => { c with pm1 := if v then c.pm1 ||| 0x0800 else c.pm1 &&& 0xF7FF }) (fun _ => 4)
    (fun c v => { c with pValue := some v })

/-- I, J and R (R175 to R177) in a V2 frame; in a V1 frame, whose bitfield-2 is 0, the rows' mask bits are copied
from it all the same. -/
def Obligations.ArcFieldRows : Prop :=
  ∀ s : State, ∀ k < 3, ∀ (i : Instr) (put : Record → Word → Record),
    (k = 0 ∧ i = .bf2I ∧ put = (fun c v => { c with i := some v }) ∨
      k = 1 ∧ i = .bf2J ∧ put = (fun c v => { c with j := some v }) ∨
      k = 2 ∧ i = .bf2R ∧ put = (fun c v => { c with r := some v })) →
    ∃ mask : Half,
      (∀ n < 16, mask.getLsbD n = (if n = k then s.work.bf2.getLsbD n else s.work.cmd.pm2.getLsbD n)) ∧
      ((s.work.bf1.getLsbD 12 = false ∨ s.work.bf2.getLsbD k = false) →
        exec i s = .next (s.afterRow { s.work with cmd := { s.work.cmd with pm2 := mask } })) ∧
      (s.work.bf1.getLsbD 12 = true → s.work.bf2.getLsbD k = true → s.work.off + 4 ≤ s.params.accLen →
        ∃ v : Word, v.toNat = s.littleEndian s.work.off 4 ∧
          exec i s = .next (s.afterRow { s.work with
            off := s.work.off + 4
            cmd := put { s.work.cmd with pm2 := mask } v }))

/-- The text rows (R178, R179): in a frame of its version with bit 15 set each notes where the text starts and how long
it is, 16 bytes in V1 and min(tl, 79) in V2, and moves past it; in any other frame it only copies the mask bit. -/
def Obligations.TextRows : Prop :=
  ∀ s : State, s.work.off < 256 → ∃ mask : Half,
    (∀ n < 16, mask.getLsbD n = (if n = 15 then s.work.bf1.getLsbD n else s.work.cmd.pm1.getLsbD n)) ∧
    (s.work.bf1.getLsbD 15 = true → s.work.bf1.getLsbD 12 = false → ∃ st len : Byte,
      st.toNat = s.work.off ∧ len.toNat = 16 ∧
      exec .bf1TextV1 s = .next (s.afterRow { s.work with
        off := s.work.off + 16
        cmd := { s.work.cmd with pm1 := mask, textStart := some st, textLen := some len } })) ∧
    (s.work.bf1.getLsbD 15 = false ∨ s.work.bf1.getLsbD 12 = true →
      exec .bf1TextV1 s = .next (s.afterRow { s.work with cmd := { s.work.cmd with pm1 := mask } })) ∧
    (∀ tl : Byte, s.work.bf1.getLsbD 15 = true → s.work.bf1.getLsbD 12 = true → s.work.tl = some tl →
      ∃ st len : Byte, st.toNat = s.work.off ∧ len.toNat = min tl.toNat 79 ∧
      exec .bf1TextV2 s = .next (s.afterRow { s.work with
        off := s.work.off + min tl.toNat 79
        cmd := { s.work.cmd with pm1 := mask, textStart := some st, textLen := some len } })) ∧
    (s.work.bf1.getLsbD 15 = false ∨ s.work.bf1.getLsbD 12 = false →
      exec .bf1TextV2 s = .next (s.afterRow { s.work with cmd := { s.work.cmd with pm1 := mask } }))

/-! ## Binary frames as a whole -/

/-- Frame lengths: FS.size is FAIL exactly on fewer bytes than its bits ask for (R121, R122): 2, with bit 12 set 4, with
bits 12 and 15 set 5; whatever it answers is at least FS.need + 2 (R123), at most 133, at most 53 in V1 and at least 6
in V2 (R124); and two headers, each of at least the FS.need bytes (R120) and agreeing on the bits and bytes the formula
names, have a length, the same one (R125). -/
def Obligations.FrameSizeRangeAndNeutralBits : Prop :=
  (∀ h : List Byte, fsSize h = none ↔
    h.length < 2 ∨ (h.length < 4 ∧ (headerBf1 h).getLsbD 12 = true) ∨
    (h.length < 5 ∧ (headerBf1 h).getLsbD 12 = true ∧ (headerBf1 h).getLsbD 15 = true)) ∧
  (∀ (h : List Byte) (n : Nat), fsSize h = some n →
    fsNeed h + 2 ≤ n ∧ 4 ≤ n ∧ n ≤ 133 ∧
    ((headerBf1 h).getLsbD 12 = false → n ≤ 53) ∧ ((headerBf1 h).getLsbD 12 = true → 6 ≤ n)) ∧
  ∀ h h' : List Byte, 2 ≤ h.length → fsNeed h ≤ h.length → 2 ≤ h'.length → fsNeed h' ≤ h'.length →
    (∀ k < 16, k ≠ 7 → k ≠ 13 → k ≠ 14 → (headerBf1 h).getLsbD k = (headerBf1 h').getLsbD k) →
    ((headerBf1 h).getLsbD 12 = true → ∀ k < 3, (headerBf2 h).getLsbD k = (headerBf2 h').getLsbD k) →
    ((headerBf1 h).getLsbD 12 = true → (headerBf1 h).getLsbD 15 = true → h[4]? = h'[4]?) →
    ∃ n, fsSize h = some n ∧ fsSize h' = some n

/-- The size formula equals the byte count of the encoder (R128), for every combination of presence bits: all that is
asked of a record is that a text, where there is one, has the length the record gives. -/
def Obligations.EncodedLengthIsFrameSize : Prop :=
  ∀ (r : Record) (t : List Byte),
    (r.pm1.getLsbD 15 = true → t.length < 256 ∧ r.textLen = some (BitVec.ofNat 8 t.length)) →
    fsSize (encodeRecord r t) = some (encodeRecord r t).length

/-- Binary decode cannot fail (R182), it ends two bytes before the frame's end (R160), its masks are the wire bitfields,
and its record has exactly the fields they say. -/
def Obligations.BinaryDecodeCannotFail : Prop :=
  ∀ (m : List Host.Cell) (size : Nat), 133 ≤ size →
    ∃ (w : Work) (n : Nat), binaryDecode size m = .ok w ∧ fsSize (Memory.slice m 0 5) = some n ∧ w.off + 2 = n ∧
      w.cmd.pm1 = Memory.read m 1 ++ Memory.read m 0 ∧
      w.cmd.pm2 = (if w.cmd.pm1.getLsbD 12 then Memory.read m 3 ++ Memory.read m 2 else 0) ∧
      w.cmd.matchesMasks = true ∧ w.cmd.rawFormatError = false

/-- Round trip (R221): decoding the frame of a record gives the record back, with its text bytes, and the frame is
valid. -/
def Obligations.EncodeDecodeRoundTrip : Prop :=
  ∀ (r : Record) (t : List Byte) (m : List Host.Cell) (size : Nat), encodable r t = true → 133 ≤ size →
    (∀ k b, (encodeRecord r t)[k]? = some b → Memory.read m k = b) →
    frameValid (encodeRecord r t) = true ∧
    ∃ (w : Work) (start : Option Byte), binaryDecode size m = .ok w ∧
      w.cmd = { r with textStart := start } ∧ start.isSome = r.hasText ∧
      ∀ o, start = some o → Memory.slice m o.toNat t.length = t

/-- The dual-sum byte by byte (R140): both sums start at 0, and one more byte is added to the first and the new first to
the second, each modulo 255; the starts and the second sum's rule are the spec's general knowledge
(notes/assumptions/12.md). Its sensitivity (R145): a covered byte changed by an amount that is no multiple of 255 changes sum1; a
0x00 and a 0xFF in its place give the same sums; and a change of either checksum byte makes a valid frame invalid. -/
def Obligations.DualSumSensitivity : Prop :=
  dualSum [] = (0, 0) ∧
  (∀ (l : List Byte) (b : Byte),
    (dualSum (l ++ [b])).1.toNat = ((dualSum l).1.toNat + b.toNat) % 255 ∧
    (dualSum (l ++ [b])).2.toNat = ((dualSum l).2.toNat + (dualSum (l ++ [b])).1.toNat) % 255) ∧
  (∀ (pre post : List Byte) (b c : Byte), b.toNat % 255 ≠ c.toNat % 255 →
    (dualSum (pre ++ b :: post)).1 ≠ (dualSum (pre ++ c :: post)).1) ∧
  (∀ pre post : List Byte, dualSum (pre ++ 0x00 :: post) = dualSum (pre ++ 0xFF :: post)) ∧
  (∀ (body : List Byte) (c1 c2 d1 d2 : Byte), frameValid (body ++ [c1, c2]) = true → (c1, c2) ≠ (d1, d2) →
    frameValid (body ++ [d1, d2]) = false)

/-! ## ASCII decode, row by row -/

/-- The first '*' (R96, R146): it ends the body, and the check passes exactly when a digit follows it and the decimal
value of the digits is the XOR of the bytes before it. Without a '*' the body is the whole line. -/
def Obligations.ChecksumStarRow : Prop :=
  ∀ s : State, s.work.len ≤ s.params.accLen →
    (AbsentBelow 0x2A s.content s.work.len →
      exec .checksumStar s = .next (s.afterRow { s.work with
        star := none, bodyEnd := s.work.len, xorBad := false })) ∧
    (∀ (k : Nat) (ds rest : List Byte), FirstAt 0x2A s.content s.work.len k →
      s.content.drop (k + 1) = ds ++ rest → (∀ d ∈ ds, isDigit d = true) → StopsDigits rest →
      ∃ bad : Bool,
        (bad = false ↔ ds ≠ [] ∧ decimalValue ds = (List.foldl (· ^^^ ·) 0 (s.content.take k)).toNat) ∧
        exec .checksumStar s = .next (s.afterRow { s.work with
          star := some k, bodyEnd := k, xorBad := bad }))

/-- Sensitivity of the XOR check (R149): changing one byte of the body other than into '*' makes a line whose checksum
passed fail with ChecksumMismatch. -/
def Obligations.XorSensitivity : Prop :=
  ∀ (pre post suffix : List Byte) (b c : Byte) (mandatory src : Bool), b ≠ c → c ≠ 0x2A →
    (∀ x ∈ pre ++ b :: post, x ≠ 0x2A) →
    asciiFailure mandatory src (asciiDecode (pre ++ b :: post ++ 0x2A :: suffix)) ≠ some .checksumMismatch →
    asciiFailure mandatory src (asciiDecode (pre ++ c :: post ++ 0x2A :: suffix)) = some .checksumMismatch

/-- The token M (R196): searched in the whole body, masked to 16 bits, and a member of TEXT_M turns on text mode. -/
def Obligations.TokenMRow : Prop :=
  ∀ s : State, s.work.len ≤ s.params.accLen →
    (AbsentBelow 0x4D s.bodyBytes s.bodyBytes.length →
      exec .tokM s = .next (s.afterRow { s.work with mpos := none })) ∧
    ∀ p, FirstAt 0x4D s.bodyBytes s.bodyBytes.length p →
      (parseInt (s.bodyBytes.drop (p + 1)) = none →
        exec .tokM s = .next (s.afterRow { s.work with mpos := some p, fmt := true })) ∧
      ∀ v, parseInt (s.bodyBytes.drop (p + 1)) = some v → ∃ text : Bool,
        (text = true ↔ BitVec.ofInt 16 v ∈ [23, 28, 29, 30, 32, 117, 3117]) ∧
        exec .tokM s = .next (s.afterRow { s.work with
          mpos := some p
          textMode := text
          cmd := { s.work.cmd with mCode := some (BitVec.ofInt 16 v) } })

/-- The tokens with an integer, each truncated to its field's width (R197, R198, R204 to R206). -/
def Obligations.IntegerTokenRows : Prop :=
  IntTokenEffect .tokN 0x4E (fun c v => { c with lineNumber := some (BitVec.ofInt 32 v) }) ∧
  IntTokenEffect .tokG 0x47 (fun c v => { c with gCode := some (BitVec.ofInt 16 v) }) ∧
  IntTokenEffect .tokT 0x54 (fun c v => { c with toolIndex := some (BitVec.ofInt 8 v) }) ∧
  IntTokenEffect .tokS 0x53 (fun c v => { c with sValue := some (BitVec.ofInt 32 v) }) ∧
  IntTokenEffect .tokP 0x50 (fun c v => { c with pValue := some (BitVec.ofInt 32 v) })

/-- The tokens with a decimal (R199 to R203, R207 to R209). -/
def Obligations.FloatTokenRows : Prop :=
  FloatTokenEffect .tokX 0x58 (fun c v => { c with x := some v }) ∧
  FloatTokenEffect .tokY 0x59 (fun c v => { c with y := some v }) ∧
  FloatTokenEffect .tokZ 0x5A (fun c v => { c with z := some v }) ∧
  FloatTokenEffect .tokE 0x45 (fun c v => { c with e := some v }) ∧
  FloatTokenEffect .tokF 0x46 (fun c v => { c with f := some v }) ∧
  FloatTokenEffect .tokI 0x49 (fun c v => { c with i := some v }) ∧
  FloatTokenEffect .tokJ 0x4A (fun c v => { c with j := some v }) ∧
  FloatTokenEffect .tokR 0x52 (fun c v => { c with r := some v })

/-- Text capture (R210, R211) by the M code's own row: the text starts after the M number's word and the whitespace
that follows it; it is one word, up to the next SPACE (D17, notes/assumptions/14.md), or for 117 and 3117 the rest of
the body. That a row does nothing without text mode or on a line with another code is the model's
(notes/assumptions/17.md). -/
def Obligations.TextCaptureRows : Prop :=
  ∀ (i : Instr) (code : Half) (s : State),
    (i, code) ∈ [(Instr.m23, 23), (.m28, 28), (.m29, 29), (.m30, 30), (.m32, 32), (.m117, 117), (.m3117, 3117)] →
    s.work.len ≤ s.params.accLen →
    (s.work.textMode = false ∨ s.work.cmd.mCode ≠ some code → exec i s = .next (s.afterRow s.work)) ∧
    ∀ (mpos : Nat) (num gap word rest : List Byte),
      s.work.textMode = true → s.work.cmd.mCode = some code → s.work.mpos = some mpos →
      TextParts s.bodyBytes mpos num gap word rest →
      exec i s = .next (s.afterRow { s.work with cmd := { s.work.cmd with
        textStart := some (BitVec.ofNat 8 (mpos + 1 + num.length + gap.length))
        textLen := some (BitVec.ofNat 8
          (if code = 117 ∨ code = 3117 then word.length + rest.length else word.length)) } })

/-! ## ASCII numbers and lines as a whole -/

/-- The integer grammar (R193): an optional sign and the longest run of digits after it; what follows is ignored; with
no digit the parse fails. -/
def Obligations.IntegerGrammar : Prop :=
  ∀ (sg ds rest : List Byte) (neg : Bool), IsSign sg neg → (∀ d ∈ ds, isDigit d = true) → StopsDigits rest →
    (ds ≠ [] → parseInt (sg ++ ds ++ rest) =
      some (if neg then -(decimalValue ds : Int) else (decimalValue ds : Int))) ∧
    (ds = [] → (sg = [] → ∀ b, rest.head? = some b → b ≠ 0x2B ∧ b ≠ 0x2D) → parseInt (sg ++ rest) = none)

/-- The decimal grammar (R194): an optional sign, digits, and a fraction after a '.'; the exact value is the digits
over a power of ten; with no digit the parse fails. -/
def Obligations.DecimalGrammar : Prop :=
  ∀ (sg ds fs rest : List Byte) (neg : Bool), IsSign sg neg → (∀ d ∈ ds, isDigit d = true) →
    (∀ d ∈ fs, isDigit d = true) → StopsDigits rest →
    (ds ≠ [] → rest.head? ≠ some 0x2E →
      parseFloat (sg ++ ds ++ rest) = some (if neg then dec2f32 (decimalValue ds) 1 ||| 0x80000000
        else dec2f32 (decimalValue ds) 1)) ∧
    (ds ++ fs ≠ [] →
      parseFloat (sg ++ ds ++ 0x2E :: fs ++ rest) =
        some (if neg then dec2f32 (decimalValue (ds ++ fs)) (10 ^ fs.length) ||| 0x80000000
          else dec2f32 (decimalValue (ds ++ fs)) (10 ^ fs.length))) ∧
    (ds = [] → fs = [] → parseFloat (sg ++ 0x2E :: rest) = none) ∧
    (ds = [] → rest.head? ≠ some 0x2E → (sg = [] → ∀ b, rest.head? = some b → b ≠ 0x2B ∧ b ≠ 0x2D) →
      parseFloat (sg ++ rest) = none)

/-- DEC2F32 (R194): from 2^128 - 2^103 on it is +infinity; below, it is a finite pattern nearest to the rational, and
the even one of two that are equally near. -/
def Obligations.DecimalIsRoundedToNearest : Prop :=
  ∀ num den : Nat, 0 < den →
    ((2 ^ 128 - 2 ^ 103) * den ≤ num → dec2f32 num den = 0x7F800000) ∧
    (num < (2 ^ 128 - 2 ^ 103) * den →
      (dec2f32 num den).toNat < 0x7F800000 ∧
      ∀ b < 0x7F800000, b ≠ (dec2f32 num den).toNat →
        f32Distance num den (dec2f32 num den).toNat < f32Distance num den b ∨
        (f32Distance num den (dec2f32 num den).toNat = f32Distance num den b ∧ (dec2f32 num den).toNat % 2 = 0))

/-- What ASCII decode reads from a line (R190 to R211) and the masks it builds (R212). The body ends at the first '*'.
M is searched in the whole body, every other letter below `lim`: the M in text mode, else the body's end. Each field is
the number after its letter's first occurrence, truncated to the field's width, or none; rawFormatError says that some
found letter's number failed. Text is there in text mode alone (its end by D17, notes/assumptions/14.md). In the masks
each field is there exactly when its bit is set, bits 7, 13 and 14 are 0, bit 12 says that M or G is above 255 or that
I, J or R is there, bit 15 is text mode, pm2 has no other bit. -/
def Obligations.AsciiDecodeAndMasks : Prop :=
  ∀ c : List Byte,
    let w := asciiDecode c
    let r := w.cmd
    let body := c.take w.bodyEnd
    (AbsentBelow 0x2A c c.length → w.star = none ∧ w.bodyEnd = c.length) ∧
    (∀ k, FirstAt 0x2A c c.length k → w.star = some k ∧ w.bodyEnd = k) ∧
    (∀ p, w.mpos = some p ↔ FirstAt 0x4D body body.length p) ∧
    LetterReads parseInt (BitVec.ofInt 16) 0x4D body body.length r.mCode ∧
    (w.textMode = true ↔ ∃ code ∈ [23, 28, 29, 30, 32, 117, 3117], r.mCode = some code) ∧
    (∃ lim, (w.textMode = true → w.mpos = some lim) ∧ (w.textMode = false → lim = body.length) ∧
      LetterReads parseInt (BitVec.ofInt 32) 0x4E body lim r.lineNumber ∧
      LetterReads parseInt (BitVec.ofInt 16) 0x47 body lim r.gCode ∧
      LetterReads parseFloat id 0x58 body lim r.x ∧
      LetterReads parseFloat id 0x59 body lim r.y ∧
      LetterReads parseFloat id 0x5A body lim r.z ∧
      LetterReads parseFloat id 0x45 body lim r.e ∧
      LetterReads parseFloat id 0x46 body lim r.f ∧
      LetterReads parseInt (BitVec.ofInt 8) 0x54 body lim r.toolIndex ∧
      LetterReads parseInt (BitVec.ofInt 32) 0x53 body lim r.sValue ∧
      LetterReads parseInt (BitVec.ofInt 32) 0x50 body lim r.pValue ∧
      LetterReads parseFloat id 0x49 body lim r.i ∧
      LetterReads parseFloat id 0x4A body lim r.j ∧
      LetterReads parseFloat id 0x52 body lim r.r ∧
      (r.rawFormatError = true ↔
        LetterFails parseInt body body.length 0x4D ∨
        (∃ ch ∈ [0x4E, 0x47, 0x54, 0x53, 0x50], LetterFails parseInt body lim ch) ∨
        (∃ ch ∈ [0x58, 0x59, 0x5A, 0x45, 0x46, 0x49, 0x4A, 0x52], LetterFails parseFloat body lim ch))) ∧
    (w.textMode = false → r.textStart = none ∧ r.textLen = none) ∧
    (∀ (mpos : Nat) (num gap word rest : List Byte),
      w.textMode = true → w.mpos = some mpos → TextParts body mpos num gap word rest →
      r.textStart = some (BitVec.ofNat 8 (mpos + 1 + num.length + gap.length)) ∧
      r.textLen = some (BitVec.ofNat 8
        (if r.mCode = some 117 ∨ r.mCode = some 3117 then word.length + rest.length else word.length))) ∧
    r.matchesMasks = true ∧ r.pm1.getLsbD 7 = false ∧ r.pm1.getLsbD 13 = false ∧ r.pm1.getLsbD 14 = false ∧
    r.pm1.getLsbD 15 = w.textMode ∧ (∀ k, 3 ≤ k → r.pm2.getLsbD k = false) ∧
    (r.pm1.getLsbD 12 = true ↔
      (∃ v, r.mCode = some v ∧ 255 < v.toNat) ∨ (∃ v, r.gCode = some v ∧ 255 < v.toNat) ∨
      r.i.isSome = true ∨ r.j.isSome = true ∨ r.r.isSome = true)

/-- The order of the ASCII errors (R213) and the exemptions of R148: a '*' whose check fails, else a missing mandatory
checksum, else a format error, else none of M, G, T. -/
def Obligations.AsciiErrorOrder : Prop :=
  ∀ (mandatory src : Bool) (w : Work),
    let r := w.cmd
    let badStar := w.star ≠ none ∧ w.xorBad = true
    let exempt := (r.pm1.getLsbD 1 = true ∧ r.mCode = some 110) ∨ r.pm1.getLsbD 15 = true ∨ src = true
    let missing := w.star = none ∧ mandatory = true ∧ ¬ exempt
    let noCommand := r.pm1.getLsbD 1 = false ∧ r.pm1.getLsbD 2 = false ∧ r.pm1.getLsbD 9 = false
    (asciiFailure mandatory src w = some .checksumMismatch ↔ badStar) ∧
    (asciiFailure mandatory src w = some .missingChecksum ↔ missing) ∧
    (asciiFailure mandatory src w = some .fieldFormatError ↔ ¬ badStar ∧ ¬ missing ∧ r.rawFormatError = true) ∧
    (asciiFailure mandatory src w = some .missingRequiredField ↔
      ¬ badStar ∧ ¬ missing ∧ r.rawFormatError = false ∧ noCommand) ∧
    (asciiFailure mandatory src w = none ↔ ¬ badStar ∧ ¬ missing ∧ r.rawFormatError = false ∧ ¬ noCommand)

/-! ## Invariants and safety -/

/-- The state after power-on is good (R43, R371). -/
def Obligations.ResetStateIsGood : Prop := State.reset.Inv

/-- Every step from a good state leads to a good state (R43). -/
def Obligations.EveryStepKeepsTheInvariant : Prop :=
  ∀ s t : State, s.Inv → step s = .next t → t.Inv

/-- From a good state no step stops: no fault, no refusal (R348, R245). -/
def Obligations.NoGoodStateStops : Prop :=
  ∀ s : State, s.Inv → ∃ t, step s = .next t
end

