-- ==== Sys2Proof/Laws/Memory.lean ====
section
/-! SUPPORT. The laws of the accumulator's memory: what a write does to a read, that every write keeps the canonical
form, and what a slice holds. -/

namespace Sys2Proof.Machine

theorem Memory.above_mono {a b : Nat} (hab : b ≤ a) : ∀ {m : List Host.Cell}, Memory.above a m = true → Memory.above b m = true
  | [], _ => rfl
  | c :: m, h => by
    simp only [Memory.above, Bool.and_eq_true, decide_eq_true_eq] at h ⊢
    exact ⟨by omega, Memory.above_mono hab h.2⟩

/-- An address below every listed one reads as the blank byte. -/
theorem Memory.read_eq_blank_of_above {a x : Nat} (hx : x ≤ a) :
    ∀ {m : List Host.Cell}, Memory.above a m = true → Memory.read m x = Memory.blank
  | [], _ => rfl
  | c :: m, h => by
    simp only [Memory.above, Bool.and_eq_true, decide_eq_true_eq] at h
    have hne : ¬ c.1 = x := by omega
    simp only [Memory.read, hne, if_false]
    exact Memory.read_eq_blank_of_above hx h.2

theorem Memory.above_write {x a : Nat} {b : Byte} (hx : x < a) :
    ∀ {m : List Host.Cell}, Memory.above x m = true → Memory.above x (Memory.write m a b) = true
  | [], _ => by by_cases hb : b = Memory.blank <;> simp [Memory.write, Memory.above, hb, hx]
  | c :: m, h => by
    have h' := h
    simp only [Memory.above, Bool.and_eq_true, decide_eq_true_eq] at h
    unfold Memory.write
    split
    · split
      · exact h'
      · simp [Memory.above, hx, h.1, h.2]
    · split
      · split
        · exact h.2
        · simp [Memory.above, hx, h.2]
      · simp only [Memory.above, Bool.and_eq_true, decide_eq_true_eq]
        exact ⟨h.1, Memory.above_write hx h.2⟩

/-- A write keeps the canonical form. -/
theorem Memory.wf_write {a : Nat} {b : Byte} :
    ∀ {m : List Host.Cell}, Memory.wf m = true → Memory.wf (Memory.write m a b) = true
  | [], _ => by by_cases hb : b = Memory.blank <;> simp [Memory.write, Memory.wf, Memory.above, hb]
  | c :: m, h => by
    have h' := h
    simp only [Memory.wf, Bool.and_eq_true, decide_eq_true_eq] at h
    unfold Memory.write
    split
    next hlt =>
      split
      · exact h'
      next hb =>
        simp only [Memory.wf, Memory.above, Bool.and_eq_true, decide_eq_true_eq]
        exact ⟨⟨hb, hlt, Memory.above_mono (Nat.le_of_lt hlt) h.1.2⟩, h.1, h.2⟩
    next hlt =>
      split
      next heq =>
        split
        · exact h.2
        next hb =>
          simp only [Memory.wf, Bool.and_eq_true, decide_eq_true_eq]
          exact ⟨⟨hb, heq ▸ h.1.2⟩, h.2⟩
      next hne =>
        simp only [Memory.wf, Bool.and_eq_true, decide_eq_true_eq]
        exact ⟨⟨h.1.1, Memory.above_write (by omega) h.1.2⟩, Memory.wf_write h.2⟩

/-- A read after a write, at any address. -/
theorem Memory.read_write {a x : Nat} {b : Byte} :
    ∀ {m : List Host.Cell}, Memory.wf m = true →
      Memory.read (Memory.write m a b) x = if x = a then b else Memory.read m x
  | [], _ => by
    by_cases hb : b = Memory.blank
    · simp [Memory.write, Memory.read, hb]
    · by_cases hx : x = a
      · simp [Memory.write, Memory.read, hb, hx]
      · simp [Memory.write, Memory.read, hb, hx, Ne.symm hx]
  | c :: m, h => by
    simp only [Memory.wf, Bool.and_eq_true, decide_eq_true_eq] at h
    unfold Memory.write
    split
    next hlt =>
      split
      next hb =>
        by_cases hx : x = a
        · have hne : ¬ c.1 = a := by omega
          simp only [hx, if_true, Memory.read, hne, if_false, hb]
          exact Memory.read_eq_blank_of_above (Nat.le_of_lt hlt) h.1.2
        · simp [hx]
      · by_cases hx : x = a
        · simp [hx, Memory.read]
        · have hne : ¬ a = x := fun e => hx e.symm
          rw [Memory.read]
          simp [hx, hne]
    next hlt =>
      split
      next heq =>
        split
        next hb =>
          by_cases hx : x = a
          · simp only [hx, if_true, hb]
            exact Memory.read_eq_blank_of_above (Nat.le_of_eq heq) h.1.2
          · have hne : ¬ c.1 = x := by omega
            simp [hx, Memory.read, hne]
        · by_cases hx : x = a
          · simp [hx, Memory.read]
          · have hne : ¬ a = x := fun e => hx e.symm
            have hne' : ¬ c.1 = x := by omega
            simp [hx, Memory.read, hne, hne']
      next hne =>
        by_cases hx : c.1 = x
        · have hxa : ¬ x = a := by omega
          simp [Memory.read, hx, hxa]
        · simp only [Memory.read, hx, if_false]
          exact Memory.read_write h.2

theorem Memory.read_write_same {m : List Host.Cell} (h : Memory.wf m = true) (a : Nat) (b : Byte) :
    Memory.read (Memory.write m a b) a = b := by simp [Memory.read_write h]

theorem Memory.read_write_other {m : List Host.Cell} (h : Memory.wf m = true) {a x : Nat} (b : Byte) (hx : x ≠ a) :
    Memory.read (Memory.write m a b) x = Memory.read m x := by simp [Memory.read_write h, hx]

/-- A write lists no address but its own and those listed before. -/
theorem Memory.mem_write {a : Nat} {b : Byte} {c : Host.Cell} :
    ∀ {m : List Host.Cell}, c ∈ Memory.write m a b → c.1 = a ∨ c ∈ m
  | [], h => by
    by_cases hb : b = Memory.blank
    · simp [Memory.write, hb] at h
    · simp only [Memory.write, hb, if_false, List.mem_singleton] at h
      exact .inl (by rw [h])
  | d :: m, h => by
    unfold Memory.write at h
    split at h
    · split at h
      · exact .inr h
      · rcases List.mem_cons.1 h with h | h
        · exact .inl (by rw [h])
        · exact .inr h
    · split at h
      · split at h
        · exact .inr (List.mem_cons_of_mem _ h)
        · rcases List.mem_cons.1 h with h | h
          · exact .inl (by rw [h])
          · exact .inr (List.mem_cons_of_mem _ h)
      · rcases List.mem_cons.1 h with h | h
        · exact .inr (by simp [h])
        · rcases Memory.mem_write h with h | h
          · exact .inl h
          · exact .inr (List.mem_cons_of_mem _ h)

theorem Memory.write_within {size a : Nat} {b : Byte} {m : List Host.Cell} (ha : a < size)
    (h : ∀ c ∈ m, c.1 < size) : ∀ c ∈ Memory.write m a b, c.1 < size := fun c hc => by
  rcases Memory.mem_write hc with hc | hc
  · omega
  · exact h c hc

theorem State.reset_acc_wf : Memory.wf State.reset.acc = true := rfl

/-! ## Slices -/

@[simp] theorem Memory.slice_length (m : List Host.Cell) (off n : Nat) : (Memory.slice m off n).length = n := by
  simp [Memory.slice]

theorem Memory.slice_getElem? (m : List Host.Cell) (off n k : Nat) :
    (Memory.slice m off n)[k]? = if k < n then some (Memory.read m (off + k)) else none := by
  simp only [Memory.slice, List.getElem?_map]
  split
  next h => simp [List.getElem?_range h]
  next h => simp [List.getElem?_eq_none (by simpa using h : (List.range n).length ≤ k)]

/-- One more byte of a slice. -/
theorem Memory.slice_succ (m : List Host.Cell) (off n : Nat) :
    Memory.slice m off (n + 1) = Memory.slice m off n ++ [Memory.read m (off + n)] := by
  simp [Memory.slice, List.range_succ]

/-- A shorter slice is a prefix of a longer one. -/
theorem Memory.slice_take (m : List Host.Cell) (off n k : Nat) (h : k ≤ n) :
    (Memory.slice m off n).take k = Memory.slice m off k := by
  simp only [Memory.slice, ← List.map_take, List.take_range, Nat.min_eq_left h]

/-- Slices agree where the bytes agree. -/
theorem Memory.slice_congr {m m' : List Host.Cell} {off n : Nat}
    (h : ∀ k < n, Memory.read m (off + k) = Memory.read m' (off + k)) : Memory.slice m off n = Memory.slice m' off n := by
  simp only [Memory.slice]
  exact List.map_congr_left fun k hk => h k (List.mem_range.1 hk)

/-- A byte stored past a slice leaves it. -/
theorem Memory.slice_write_outside {m : List Host.Cell} (hm : Memory.wf m = true) {off n a : Nat} (b : Byte)
    (h : a < off ∨ off + n ≤ a) : Memory.slice (Memory.write m a b) off n = Memory.slice m off n :=
  Memory.slice_congr fun k hk => Memory.read_write_other hm b (by omega)

/-- A byte stored at a slice's end extends it. -/
theorem Memory.slice_write_end {m : List Host.Cell} (hm : Memory.wf m = true) (n : Nat) (b : Byte) :
    Memory.slice (Memory.write m n b) 0 (n + 1) = Memory.slice m 0 n ++ [b] := by
  rw [Memory.slice_succ, Memory.slice_write_outside hm b (.inr (by omega)), Nat.zero_add, Memory.read_write_same hm]

/-! ## Reads and the store -/

theorem memRead1_eq {size off : Nat} (m : List Host.Cell) (h : off + 1 ≤ size) :
    memRead1 size m off = .ok (Memory.read m off) := by simp [memRead1, h]

theorem memRead2_eq {size off : Nat} (m : List Host.Cell) (h : off + 2 ≤ size) :
    memRead2 size m off = .ok (Memory.read m (off + 1) ++ Memory.read m off) := by simp [memRead2, h]

theorem memRead4_eq {size off : Nat} (m : List Host.Cell) (h : off + 4 ≤ size) :
    memRead4 size m off = .ok (Memory.read m (off + 3) ++ Memory.read m (off + 2) ++ Memory.read m (off + 1)
      ++ Memory.read m off) := by simp [memRead4, h]

theorem memBytes_eq {size off n : Nat} (m : List Host.Cell) (h : off + n ≤ size) :
    memBytes size m off n = .ok (Memory.slice m off n) := by simp [memBytes, h]

theorem memBytes_cases {size off n : Nat} {m : List Host.Cell} {l : List Byte} (h : memBytes size m off n = .ok l) :
    off + n ≤ size ∧ l = Memory.slice m off n := by
  unfold memBytes at h
  split at h
  next hle => exact ⟨hle, by injection h with h; exact h.symm⟩
  · cases h

/-- All that a store can do. -/
theorem State.storeAcc_cases {s t : State} {off : Nat} {v : Byte} (h : s.storeAcc off v = .ok t) :
    off < s.params.accLen ∧ t = { s with acc := Memory.write s.acc off v } := by
  unfold State.storeAcc at h
  split at h
  next hlt => exact ⟨hlt, by injection h with h; exact h.symm⟩
  · cases h

theorem State.storeAcc_eq {s : State} {off : Nat} (v : Byte) (h : off < s.params.accLen) :
    s.storeAcc off v = .ok { s with acc := Memory.write s.acc off v } := by simp [State.storeAcc, h]

/-- Every frame fits acc (R9). -/
theorem maxFrame_le_accLen (p : Config.Params) : 133 ≤ p.accLen := Nat.le_max_left _ _

end Sys2Proof.Machine
end

