-- ==== Sys2Proof/Laws/State.lean ====
section
/-! SUPPORT. One lemma per field per update of the state, each true by rfl, so that no later proof unfolds an update. -/

namespace Sys2Proof.Machine

/-! ## consume -/

@[simp] theorem State.consume_params (s : State) : (s.consume).params = s.params := rfl
@[simp] theorem State.consume_acc (s : State) : (s.consume).acc = s.acc := rfl
@[simp] theorem State.consume_cursor (s : State) : (s.consume).cursor = s.cursor := rfl
@[simp] theorem State.consume_binMode (s : State) : (s.consume).binMode = s.binMode := rfl
@[simp] theorem State.consume_comment (s : State) : (s.consume).comment = s.comment := rfl
@[simp] theorem State.consume_frameLen (s : State) : (s.consume).frameLen = s.frameLen := rfl
@[simp] theorem State.consume_frameSrc (s : State) : (s.consume).frameSrc = s.frameSrc := rfl
@[simp] theorem State.consume_lastAcceptedLine (s : State) : (s.consume).lastAcceptedLine = s.lastAcceptedLine := rfl
@[simp] theorem State.consume_awaiting (s : State) : (s.consume).awaiting = s.awaiting := rfl
@[simp] theorem State.consume_pendingResendLine (s : State) : (s.consume).pendingResendLine = s.pendingResendLine := rfl
@[simp] theorem State.consume_skipCount (s : State) : (s.consume).skipCount = s.skipCount := rfl
@[simp] theorem State.consume_consecutiveFormatErrors (s : State) : (s.consume).consecutiveFormatErrors = s.consecutiveFormatErrors := rfl
@[simp] theorem State.consume_slots (s : State) : (s.consume).slots = s.slots := rfl
@[simp] theorem State.consume_head (s : State) : (s.consume).head = s.head := rfl
@[simp] theorem State.consume_count (s : State) : (s.consume).count = s.count := rfl
@[simp] theorem State.consume_peekValid (s : State) : (s.consume).peekValid = s.peekValid := rfl
@[simp] theorem State.consume_payloadBusy (s : State) : (s.consume).payloadBusy = s.payloadBusy := rfl
@[simp] theorem State.consume_cfgChecksumMandatory (s : State) : (s.consume).cfgChecksumMandatory = s.cfgChecksumMandatory := rfl
@[simp] theorem State.consume_popFault (s : State) : (s.consume).popFault = s.popFault := rfl
@[simp] theorem State.consume_response (s : State) : (s.consume).response = s.response := rfl
@[simp] theorem State.consume_events (s : State) : (s.consume).events = [] := rfl
@[simp] theorem State.consume_work (s : State) : (s.consume).work = s.work := rfl
@[simp] theorem State.consume_port (s : State) : (s.consume).port = s.port.tail := rfl

/-! ## respond -/

@[simp] theorem State.respond_params (s : State) (r : Response) : (s.respond r).params = s.params := rfl
@[simp] theorem State.respond_acc (s : State) (r : Response) : (s.respond r).acc = s.acc := rfl
@[simp] theorem State.respond_cursor (s : State) (r : Response) : (s.respond r).cursor = s.cursor := rfl
@[simp] theorem State.respond_binMode (s : State) (r : Response) : (s.respond r).binMode = s.binMode := rfl
@[simp] theorem State.respond_comment (s : State) (r : Response) : (s.respond r).comment = s.comment := rfl
@[simp] theorem State.respond_frameLen (s : State) (r : Response) : (s.respond r).frameLen = s.frameLen := rfl
@[simp] theorem State.respond_frameSrc (s : State) (r : Response) : (s.respond r).frameSrc = s.frameSrc := rfl
@[simp] theorem State.respond_lastAcceptedLine (s : State) (r : Response) : (s.respond r).lastAcceptedLine = s.lastAcceptedLine := rfl
@[simp] theorem State.respond_awaiting (s : State) (r : Response) : (s.respond r).awaiting = s.awaiting := rfl
@[simp] theorem State.respond_pendingResendLine (s : State) (r : Response) : (s.respond r).pendingResendLine = s.pendingResendLine := rfl
@[simp] theorem State.respond_skipCount (s : State) (r : Response) : (s.respond r).skipCount = s.skipCount := rfl
@[simp] theorem State.respond_consecutiveFormatErrors (s : State) (r : Response) : (s.respond r).consecutiveFormatErrors = s.consecutiveFormatErrors := rfl
@[simp] theorem State.respond_slots (s : State) (r : Response) : (s.respond r).slots = s.slots := rfl
@[simp] theorem State.respond_head (s : State) (r : Response) : (s.respond r).head = s.head := rfl
@[simp] theorem State.respond_count (s : State) (r : Response) : (s.respond r).count = s.count := rfl
@[simp] theorem State.respond_peekValid (s : State) (r : Response) : (s.respond r).peekValid = s.peekValid := rfl
@[simp] theorem State.respond_payloadBusy (s : State) (r : Response) : (s.respond r).payloadBusy = s.payloadBusy := rfl
@[simp] theorem State.respond_cfgChecksumMandatory (s : State) (r : Response) : (s.respond r).cfgChecksumMandatory = s.cfgChecksumMandatory := rfl
@[simp] theorem State.respond_popFault (s : State) (r : Response) : (s.respond r).popFault = s.popFault := rfl
@[simp] theorem State.respond_response (s : State) (r : Response) : (s.respond r).response = r := rfl
@[simp] theorem State.respond_events (s : State) (r : Response) : (s.respond r).events = s.events := rfl
@[simp] theorem State.respond_work (s : State) (r : Response) : (s.respond r).work = s.work := rfl
@[simp] theorem State.respond_port (s : State) (r : Response) : (s.respond r).port = s.port := rfl

/-! ## emit -/

@[simp] theorem State.emit_params (s : State) (e : Event) : (s.emit e).params = s.params := rfl
@[simp] theorem State.emit_acc (s : State) (e : Event) : (s.emit e).acc = s.acc := rfl
@[simp] theorem State.emit_cursor (s : State) (e : Event) : (s.emit e).cursor = s.cursor := rfl
@[simp] theorem State.emit_binMode (s : State) (e : Event) : (s.emit e).binMode = s.binMode := rfl
@[simp] theorem State.emit_comment (s : State) (e : Event) : (s.emit e).comment = s.comment := rfl
@[simp] theorem State.emit_frameLen (s : State) (e : Event) : (s.emit e).frameLen = s.frameLen := rfl
@[simp] theorem State.emit_frameSrc (s : State) (e : Event) : (s.emit e).frameSrc = s.frameSrc := rfl
@[simp] theorem State.emit_lastAcceptedLine (s : State) (e : Event) : (s.emit e).lastAcceptedLine = s.lastAcceptedLine := rfl
@[simp] theorem State.emit_awaiting (s : State) (e : Event) : (s.emit e).awaiting = s.awaiting := rfl
@[simp] theorem State.emit_pendingResendLine (s : State) (e : Event) : (s.emit e).pendingResendLine = s.pendingResendLine := rfl
@[simp] theorem State.emit_skipCount (s : State) (e : Event) : (s.emit e).skipCount = s.skipCount := rfl
@[simp] theorem State.emit_consecutiveFormatErrors (s : State) (e : Event) : (s.emit e).consecutiveFormatErrors = s.consecutiveFormatErrors := rfl
@[simp] theorem State.emit_slots (s : State) (e : Event) : (s.emit e).slots = s.slots := rfl
@[simp] theorem State.emit_head (s : State) (e : Event) : (s.emit e).head = s.head := rfl
@[simp] theorem State.emit_count (s : State) (e : Event) : (s.emit e).count = s.count := rfl
@[simp] theorem State.emit_peekValid (s : State) (e : Event) : (s.emit e).peekValid = s.peekValid := rfl
@[simp] theorem State.emit_payloadBusy (s : State) (e : Event) : (s.emit e).payloadBusy = s.payloadBusy := rfl
@[simp] theorem State.emit_cfgChecksumMandatory (s : State) (e : Event) : (s.emit e).cfgChecksumMandatory = s.cfgChecksumMandatory := rfl
@[simp] theorem State.emit_popFault (s : State) (e : Event) : (s.emit e).popFault = s.popFault := rfl
@[simp] theorem State.emit_response (s : State) (e : Event) : (s.emit e).response = s.response := rfl
@[simp] theorem State.emit_events (s : State) (e : Event) : (s.emit e).events = s.events ++ [e] := rfl
@[simp] theorem State.emit_work (s : State) (e : Event) : (s.emit e).work = s.work := rfl
@[simp] theorem State.emit_port (s : State) (e : Event) : (s.emit e).port = s.port := rfl

/-! ## resend -/

@[simp] theorem State.resend_params (s : State) : (s.resend).params = s.params := rfl
@[simp] theorem State.resend_acc (s : State) : (s.resend).acc = s.acc := rfl
@[simp] theorem State.resend_cursor (s : State) : (s.resend).cursor = s.cursor := rfl
@[simp] theorem State.resend_binMode (s : State) : (s.resend).binMode = s.binMode := rfl
@[simp] theorem State.resend_comment (s : State) : (s.resend).comment = s.comment := rfl
@[simp] theorem State.resend_frameLen (s : State) : (s.resend).frameLen = s.frameLen := rfl
@[simp] theorem State.resend_frameSrc (s : State) : (s.resend).frameSrc = s.frameSrc := rfl
@[simp] theorem State.resend_lastAcceptedLine (s : State) : (s.resend).lastAcceptedLine = s.lastAcceptedLine := rfl
@[simp] theorem State.resend_awaiting (s : State) : (s.resend).awaiting = true := rfl
@[simp] theorem State.resend_pendingResendLine (s : State) : (s.resend).pendingResendLine = s.lastAcceptedLine + 1 := rfl
@[simp] theorem State.resend_skipCount (s : State) : (s.resend).skipCount = BitVec.ofNat 8 s.params.skipCount := rfl
@[simp] theorem State.resend_consecutiveFormatErrors (s : State) : (s.resend).consecutiveFormatErrors = s.consecutiveFormatErrors := rfl
@[simp] theorem State.resend_slots (s : State) : (s.resend).slots = s.slots := rfl
@[simp] theorem State.resend_head (s : State) : (s.resend).head = s.head := rfl
@[simp] theorem State.resend_count (s : State) : (s.resend).count = s.count := rfl
@[simp] theorem State.resend_peekValid (s : State) : (s.resend).peekValid = s.peekValid := rfl
@[simp] theorem State.resend_payloadBusy (s : State) : (s.resend).payloadBusy = s.payloadBusy := rfl
@[simp] theorem State.resend_cfgChecksumMandatory (s : State) : (s.resend).cfgChecksumMandatory = s.cfgChecksumMandatory := rfl
@[simp] theorem State.resend_popFault (s : State) : (s.resend).popFault = s.popFault := rfl
@[simp] theorem State.resend_response (s : State) : (s.resend).response = s.response := rfl
@[simp] theorem State.resend_events (s : State) : (s.resend).events = s.events ++ [.resendRequested (s.lastAcceptedLine + 1)] := rfl
@[simp] theorem State.resend_work (s : State) : (s.resend).work = s.work := rfl
@[simp] theorem State.resend_port (s : State) : (s.resend).port = s.port := rfl

/-! ## forceAccept -/

@[simp] theorem State.forceAccept_params (s : State) : (s.forceAccept).params = s.params := rfl
@[simp] theorem State.forceAccept_acc (s : State) : (s.forceAccept).acc = s.acc := rfl
@[simp] theorem State.forceAccept_cursor (s : State) : (s.forceAccept).cursor = s.cursor := rfl
@[simp] theorem State.forceAccept_binMode (s : State) : (s.forceAccept).binMode = s.binMode := rfl
@[simp] theorem State.forceAccept_comment (s : State) : (s.forceAccept).comment = s.comment := rfl
@[simp] theorem State.forceAccept_frameLen (s : State) : (s.forceAccept).frameLen = s.frameLen := rfl
@[simp] theorem State.forceAccept_frameSrc (s : State) : (s.forceAccept).frameSrc = s.frameSrc := rfl
@[simp] theorem State.forceAccept_lastAcceptedLine (s : State) : (s.forceAccept).lastAcceptedLine = s.lastAcceptedLine + 1 := rfl
@[simp] theorem State.forceAccept_awaiting (s : State) : (s.forceAccept).awaiting = false := rfl
@[simp] theorem State.forceAccept_pendingResendLine (s : State) : (s.forceAccept).pendingResendLine = s.pendingResendLine := rfl
@[simp] theorem State.forceAccept_skipCount (s : State) : (s.forceAccept).skipCount = 0 := rfl
@[simp] theorem State.forceAccept_consecutiveFormatErrors (s : State) : (s.forceAccept).consecutiveFormatErrors = 0 := rfl
@[simp] theorem State.forceAccept_slots (s : State) : (s.forceAccept).slots = s.slots := rfl
@[simp] theorem State.forceAccept_head (s : State) : (s.forceAccept).head = s.head := rfl
@[simp] theorem State.forceAccept_count (s : State) : (s.forceAccept).count = s.count := rfl
@[simp] theorem State.forceAccept_peekValid (s : State) : (s.forceAccept).peekValid = s.peekValid := rfl
@[simp] theorem State.forceAccept_payloadBusy (s : State) : (s.forceAccept).payloadBusy = s.payloadBusy := rfl
@[simp] theorem State.forceAccept_cfgChecksumMandatory (s : State) : (s.forceAccept).cfgChecksumMandatory = s.cfgChecksumMandatory := rfl
@[simp] theorem State.forceAccept_popFault (s : State) : (s.forceAccept).popFault = s.popFault := rfl
@[simp] theorem State.forceAccept_response (s : State) : (s.forceAccept).response = s.response := rfl
@[simp] theorem State.forceAccept_events (s : State) : (s.forceAccept).events = s.events ++ [.acknowledged (some (s.lastAcceptedLine + 1))] := rfl
@[simp] theorem State.forceAccept_work (s : State) : (s.forceAccept).work = s.work := rfl
@[simp] theorem State.forceAccept_port (s : State) : (s.forceAccept).port = s.port := rfl

/-! ## countFailure -/

@[simp] theorem State.countFailure_params (s : State) (k : ErrorKind) : (s.countFailure k).params = s.params := rfl
@[simp] theorem State.countFailure_acc (s : State) (k : ErrorKind) : (s.countFailure k).acc = s.acc := rfl
@[simp] theorem State.countFailure_cursor (s : State) (k : ErrorKind) : (s.countFailure k).cursor = s.cursor := rfl
@[simp] theorem State.countFailure_binMode (s : State) (k : ErrorKind) : (s.countFailure k).binMode = s.binMode := rfl
@[simp] theorem State.countFailure_comment (s : State) (k : ErrorKind) : (s.countFailure k).comment = s.comment := rfl
@[simp] theorem State.countFailure_frameLen (s : State) (k : ErrorKind) : (s.countFailure k).frameLen = s.frameLen := rfl
@[simp] theorem State.countFailure_frameSrc (s : State) (k : ErrorKind) : (s.countFailure k).frameSrc = s.frameSrc := rfl
@[simp] theorem State.countFailure_lastAcceptedLine (s : State) (k : ErrorKind) : (s.countFailure k).lastAcceptedLine = s.lastAcceptedLine := rfl
@[simp] theorem State.countFailure_awaiting (s : State) (k : ErrorKind) : (s.countFailure k).awaiting = s.awaiting := rfl
@[simp] theorem State.countFailure_pendingResendLine (s : State) (k : ErrorKind) : (s.countFailure k).pendingResendLine = s.pendingResendLine := rfl
@[simp] theorem State.countFailure_skipCount (s : State) (k : ErrorKind) : (s.countFailure k).skipCount = s.skipCount := rfl
@[simp] theorem State.countFailure_consecutiveFormatErrors (s : State) (k : ErrorKind) : (s.countFailure k).consecutiveFormatErrors = s.consecutiveFormatErrors + 1 := rfl
@[simp] theorem State.countFailure_slots (s : State) (k : ErrorKind) : (s.countFailure k).slots = s.slots := rfl
@[simp] theorem State.countFailure_head (s : State) (k : ErrorKind) : (s.countFailure k).head = s.head := rfl
@[simp] theorem State.countFailure_count (s : State) (k : ErrorKind) : (s.countFailure k).count = s.count := rfl
@[simp] theorem State.countFailure_peekValid (s : State) (k : ErrorKind) : (s.countFailure k).peekValid = s.peekValid := rfl
@[simp] theorem State.countFailure_payloadBusy (s : State) (k : ErrorKind) : (s.countFailure k).payloadBusy = s.payloadBusy := rfl
@[simp] theorem State.countFailure_cfgChecksumMandatory (s : State) (k : ErrorKind) : (s.countFailure k).cfgChecksumMandatory = s.cfgChecksumMandatory := rfl
@[simp] theorem State.countFailure_popFault (s : State) (k : ErrorKind) : (s.countFailure k).popFault = s.popFault := rfl
@[simp] theorem State.countFailure_response (s : State) (k : ErrorKind) : (s.countFailure k).response = s.response := rfl
@[simp] theorem State.countFailure_events (s : State) (k : ErrorKind) : (s.countFailure k).events = s.events ++ [failureEvent k] := rfl
@[simp] theorem State.countFailure_work (s : State) (k : ErrorKind) : (s.countFailure k).work = s.work := rfl
@[simp] theorem State.countFailure_port (s : State) (k : ErrorKind) : (s.countFailure k).port = s.port := rfl

/-! ## lineReset -/

@[simp] theorem State.lineReset_params (s : State) (r : Record) : (s.lineReset r).params = s.params := rfl
@[simp] theorem State.lineReset_acc (s : State) (r : Record) : (s.lineReset r).acc = s.acc := rfl
@[simp] theorem State.lineReset_cursor (s : State) (r : Record) : (s.lineReset r).cursor = s.cursor := rfl
@[simp] theorem State.lineReset_binMode (s : State) (r : Record) : (s.lineReset r).binMode = s.binMode := rfl
@[simp] theorem State.lineReset_comment (s : State) (r : Record) : (s.lineReset r).comment = s.comment := rfl
@[simp] theorem State.lineReset_frameLen (s : State) (r : Record) : (s.lineReset r).frameLen = s.frameLen := rfl
@[simp] theorem State.lineReset_frameSrc (s : State) (r : Record) : (s.lineReset r).frameSrc = s.frameSrc := rfl
@[simp] theorem State.lineReset_lastAcceptedLine (s : State) (r : Record) : (s.lineReset r).lastAcceptedLine = (if r.numbered then r.line else 0) := rfl
@[simp] theorem State.lineReset_awaiting (s : State) (r : Record) : (s.lineReset r).awaiting = false := rfl
@[simp] theorem State.lineReset_pendingResendLine (s : State) (r : Record) : (s.lineReset r).pendingResendLine = s.pendingResendLine := rfl
@[simp] theorem State.lineReset_skipCount (s : State) (r : Record) : (s.lineReset r).skipCount = 0 := rfl
@[simp] theorem State.lineReset_consecutiveFormatErrors (s : State) (r : Record) : (s.lineReset r).consecutiveFormatErrors = s.consecutiveFormatErrors := rfl
@[simp] theorem State.lineReset_slots (s : State) (r : Record) : (s.lineReset r).slots = s.slots := rfl
@[simp] theorem State.lineReset_head (s : State) (r : Record) : (s.lineReset r).head = s.head := rfl
@[simp] theorem State.lineReset_count (s : State) (r : Record) : (s.lineReset r).count = s.count := rfl
@[simp] theorem State.lineReset_peekValid (s : State) (r : Record) : (s.lineReset r).peekValid = s.peekValid := rfl
@[simp] theorem State.lineReset_payloadBusy (s : State) (r : Record) : (s.lineReset r).payloadBusy = s.payloadBusy := rfl
@[simp] theorem State.lineReset_cfgChecksumMandatory (s : State) (r : Record) : (s.lineReset r).cfgChecksumMandatory = s.cfgChecksumMandatory := rfl
@[simp] theorem State.lineReset_popFault (s : State) (r : Record) : (s.lineReset r).popFault = s.popFault := rfl
@[simp] theorem State.lineReset_response (s : State) (r : Record) : (s.lineReset r).response = s.response := rfl
@[simp] theorem State.lineReset_events (s : State) (r : Record) : (s.lineReset r).events = s.events ++ [.acknowledged (if r.numbered then some r.line else none)] := rfl
@[simp] theorem State.lineReset_work (s : State) (r : Record) : (s.lineReset r).work = s.work := rfl
@[simp] theorem State.lineReset_port (s : State) (r : Record) : (s.lineReset r).port = s.port := rfl

/-! ## advanceTo -/

@[simp] theorem State.advanceTo_params (s : State) (l : Word) : (s.advanceTo l).params = s.params := rfl
@[simp] theorem State.advanceTo_acc (s : State) (l : Word) : (s.advanceTo l).acc = s.acc := rfl
@[simp] theorem State.advanceTo_cursor (s : State) (l : Word) : (s.advanceTo l).cursor = s.cursor := rfl
@[simp] theorem State.advanceTo_binMode (s : State) (l : Word) : (s.advanceTo l).binMode = s.binMode := rfl
@[simp] theorem State.advanceTo_comment (s : State) (l : Word) : (s.advanceTo l).comment = s.comment := rfl
@[simp] theorem State.advanceTo_frameLen (s : State) (l : Word) : (s.advanceTo l).frameLen = s.frameLen := rfl
@[simp] theorem State.advanceTo_frameSrc (s : State) (l : Word) : (s.advanceTo l).frameSrc = s.frameSrc := rfl
@[simp] theorem State.advanceTo_lastAcceptedLine (s : State) (l : Word) : (s.advanceTo l).lastAcceptedLine = l := rfl
@[simp] theorem State.advanceTo_awaiting (s : State) (l : Word) : (s.advanceTo l).awaiting = false := rfl
@[simp] theorem State.advanceTo_pendingResendLine (s : State) (l : Word) : (s.advanceTo l).pendingResendLine = s.pendingResendLine := rfl
@[simp] theorem State.advanceTo_skipCount (s : State) (l : Word) : (s.advanceTo l).skipCount = 0 := rfl
@[simp] theorem State.advanceTo_consecutiveFormatErrors (s : State) (l : Word) : (s.advanceTo l).consecutiveFormatErrors = s.consecutiveFormatErrors := rfl
@[simp] theorem State.advanceTo_slots (s : State) (l : Word) : (s.advanceTo l).slots = s.slots := rfl
@[simp] theorem State.advanceTo_head (s : State) (l : Word) : (s.advanceTo l).head = s.head := rfl
@[simp] theorem State.advanceTo_count (s : State) (l : Word) : (s.advanceTo l).count = s.count := rfl
@[simp] theorem State.advanceTo_peekValid (s : State) (l : Word) : (s.advanceTo l).peekValid = s.peekValid := rfl
@[simp] theorem State.advanceTo_payloadBusy (s : State) (l : Word) : (s.advanceTo l).payloadBusy = s.payloadBusy := rfl
@[simp] theorem State.advanceTo_cfgChecksumMandatory (s : State) (l : Word) : (s.advanceTo l).cfgChecksumMandatory = s.cfgChecksumMandatory := rfl
@[simp] theorem State.advanceTo_popFault (s : State) (l : Word) : (s.advanceTo l).popFault = s.popFault := rfl
@[simp] theorem State.advanceTo_response (s : State) (l : Word) : (s.advanceTo l).response = s.response := rfl
@[simp] theorem State.advanceTo_events (s : State) (l : Word) : (s.advanceTo l).events = s.events := rfl
@[simp] theorem State.advanceTo_work (s : State) (l : Word) : (s.advanceTo l).work = s.work := rfl
@[simp] theorem State.advanceTo_port (s : State) (l : Word) : (s.advanceTo l).port = s.port := rfl

/-! ## skip -/

@[simp] theorem State.skip_params (s : State) (r : Record) : (s.skip r).params = s.params := rfl
@[simp] theorem State.skip_acc (s : State) (r : Record) : (s.skip r).acc = s.acc := rfl
@[simp] theorem State.skip_cursor (s : State) (r : Record) : (s.skip r).cursor = s.cursor := rfl
@[simp] theorem State.skip_binMode (s : State) (r : Record) : (s.skip r).binMode = s.binMode := rfl
@[simp] theorem State.skip_comment (s : State) (r : Record) : (s.skip r).comment = s.comment := rfl
@[simp] theorem State.skip_frameLen (s : State) (r : Record) : (s.skip r).frameLen = s.frameLen := rfl
@[simp] theorem State.skip_frameSrc (s : State) (r : Record) : (s.skip r).frameSrc = s.frameSrc := rfl
@[simp] theorem State.skip_lastAcceptedLine (s : State) (r : Record) : (s.skip r).lastAcceptedLine = s.lastAcceptedLine := rfl
@[simp] theorem State.skip_awaiting (s : State) (r : Record) : (s.skip r).awaiting = decide (s.skipCount - 1 ≠ 0) := rfl
@[simp] theorem State.skip_pendingResendLine (s : State) (r : Record) : (s.skip r).pendingResendLine = s.pendingResendLine := rfl
@[simp] theorem State.skip_skipCount (s : State) (r : Record) : (s.skip r).skipCount = s.skipCount - 1 := rfl
@[simp] theorem State.skip_consecutiveFormatErrors (s : State) (r : Record) : (s.skip r).consecutiveFormatErrors = s.consecutiveFormatErrors := rfl
@[simp] theorem State.skip_slots (s : State) (r : Record) : (s.skip r).slots = s.slots := rfl
@[simp] theorem State.skip_head (s : State) (r : Record) : (s.skip r).head = s.head := rfl
@[simp] theorem State.skip_count (s : State) (r : Record) : (s.skip r).count = s.count := rfl
@[simp] theorem State.skip_peekValid (s : State) (r : Record) : (s.skip r).peekValid = s.peekValid := rfl
@[simp] theorem State.skip_payloadBusy (s : State) (r : Record) : (s.skip r).payloadBusy = s.payloadBusy := rfl
@[simp] theorem State.skip_cfgChecksumMandatory (s : State) (r : Record) : (s.skip r).cfgChecksumMandatory = s.cfgChecksumMandatory := rfl
@[simp] theorem State.skip_popFault (s : State) (r : Record) : (s.skip r).popFault = s.popFault := rfl
@[simp] theorem State.skip_response (s : State) (r : Record) : (s.skip r).response = s.response := rfl
@[simp] theorem State.skip_events (s : State) (r : Record) : (s.skip r).events = s.events ++ [.lineSkipped r.line, .acknowledged (some r.line)] := rfl
@[simp] theorem State.skip_work (s : State) (r : Record) : (s.skip r).work = s.work := rfl
@[simp] theorem State.skip_port (s : State) (r : Record) : (s.skip r).port = s.port := rfl

/-! ## clearErrors -/

@[simp] theorem State.clearErrors_params (s : State) : (s.clearErrors).params = s.params := rfl
@[simp] theorem State.clearErrors_acc (s : State) : (s.clearErrors).acc = s.acc := rfl
@[simp] theorem State.clearErrors_cursor (s : State) : (s.clearErrors).cursor = s.cursor := rfl
@[simp] theorem State.clearErrors_binMode (s : State) : (s.clearErrors).binMode = s.binMode := rfl
@[simp] theorem State.clearErrors_comment (s : State) : (s.clearErrors).comment = s.comment := rfl
@[simp] theorem State.clearErrors_frameLen (s : State) : (s.clearErrors).frameLen = s.frameLen := rfl
@[simp] theorem State.clearErrors_frameSrc (s : State) : (s.clearErrors).frameSrc = s.frameSrc := rfl
@[simp] theorem State.clearErrors_lastAcceptedLine (s : State) : (s.clearErrors).lastAcceptedLine = s.lastAcceptedLine := rfl
@[simp] theorem State.clearErrors_awaiting (s : State) : (s.clearErrors).awaiting = s.awaiting := rfl
@[simp] theorem State.clearErrors_pendingResendLine (s : State) : (s.clearErrors).pendingResendLine = s.pendingResendLine := rfl
@[simp] theorem State.clearErrors_skipCount (s : State) : (s.clearErrors).skipCount = s.skipCount := rfl
@[simp] theorem State.clearErrors_consecutiveFormatErrors (s : State) : (s.clearErrors).consecutiveFormatErrors = 0 := rfl
@[simp] theorem State.clearErrors_slots (s : State) : (s.clearErrors).slots = s.slots := rfl
@[simp] theorem State.clearErrors_head (s : State) : (s.clearErrors).head = s.head := rfl
@[simp] theorem State.clearErrors_count (s : State) : (s.clearErrors).count = s.count := rfl
@[simp] theorem State.clearErrors_peekValid (s : State) : (s.clearErrors).peekValid = s.peekValid := rfl
@[simp] theorem State.clearErrors_payloadBusy (s : State) : (s.clearErrors).payloadBusy = s.payloadBusy := rfl
@[simp] theorem State.clearErrors_cfgChecksumMandatory (s : State) : (s.clearErrors).cfgChecksumMandatory = s.cfgChecksumMandatory := rfl
@[simp] theorem State.clearErrors_popFault (s : State) : (s.clearErrors).popFault = s.popFault := rfl
@[simp] theorem State.clearErrors_response (s : State) : (s.clearErrors).response = s.response := rfl
@[simp] theorem State.clearErrors_events (s : State) : (s.clearErrors).events = s.events := rfl
@[simp] theorem State.clearErrors_work (s : State) : (s.clearErrors).work = s.work := rfl
@[simp] theorem State.clearErrors_port (s : State) : (s.clearErrors).port = s.port := rfl

/-! ## classify -/

@[simp] theorem State.classify_params (s : State) (b : Byte) (src : Bool) : (s.classify b src).params = s.params := rfl
@[simp] theorem State.classify_acc (s : State) (b : Byte) (src : Bool) : (s.classify b src).acc = s.acc := rfl
@[simp] theorem State.classify_cursor (s : State) (b : Byte) (src : Bool) : (s.classify b src).cursor = s.cursor := rfl
@[simp] theorem State.classify_binMode (s : State) (b : Byte) (src : Bool) : (s.classify b src).binMode = b.getLsbD 7 := rfl
@[simp] theorem State.classify_comment (s : State) (b : Byte) (src : Bool) : (s.classify b src).comment = s.comment := rfl
@[simp] theorem State.classify_frameLen (s : State) (b : Byte) (src : Bool) : (s.classify b src).frameLen = 0 := rfl
@[simp] theorem State.classify_frameSrc (s : State) (b : Byte) (src : Bool) : (s.classify b src).frameSrc = src := rfl
@[simp] theorem State.classify_lastAcceptedLine (s : State) (b : Byte) (src : Bool) : (s.classify b src).lastAcceptedLine = s.lastAcceptedLine := rfl
@[simp] theorem State.classify_awaiting (s : State) (b : Byte) (src : Bool) : (s.classify b src).awaiting = s.awaiting := rfl
@[simp] theorem State.classify_pendingResendLine (s : State) (b : Byte) (src : Bool) : (s.classify b src).pendingResendLine = s.pendingResendLine := rfl
@[simp] theorem State.classify_skipCount (s : State) (b : Byte) (src : Bool) : (s.classify b src).skipCount = s.skipCount := rfl
@[simp] theorem State.classify_consecutiveFormatErrors (s : State) (b : Byte) (src : Bool) : (s.classify b src).consecutiveFormatErrors = s.consecutiveFormatErrors := rfl
@[simp] theorem State.classify_slots (s : State) (b : Byte) (src : Bool) : (s.classify b src).slots = s.slots := rfl
@[simp] theorem State.classify_head (s : State) (b : Byte) (src : Bool) : (s.classify b src).head = s.head := rfl
@[simp] theorem State.classify_count (s : State) (b : Byte) (src : Bool) : (s.classify b src).count = s.count := rfl
@[simp] theorem State.classify_peekValid (s : State) (b : Byte) (src : Bool) : (s.classify b src).peekValid = s.peekValid := rfl
@[simp] theorem State.classify_payloadBusy (s : State) (b : Byte) (src : Bool) : (s.classify b src).payloadBusy = s.payloadBusy := rfl
@[simp] theorem State.classify_cfgChecksumMandatory (s : State) (b : Byte) (src : Bool) : (s.classify b src).cfgChecksumMandatory = s.cfgChecksumMandatory := rfl
@[simp] theorem State.classify_popFault (s : State) (b : Byte) (src : Bool) : (s.classify b src).popFault = s.popFault := rfl
@[simp] theorem State.classify_response (s : State) (b : Byte) (src : Bool) : (s.classify b src).response = s.response := rfl
@[simp] theorem State.classify_events (s : State) (b : Byte) (src : Bool) : (s.classify b src).events = s.events := rfl
@[simp] theorem State.classify_work (s : State) (b : Byte) (src : Bool) : (s.classify b src).work = s.work := rfl
@[simp] theorem State.classify_port (s : State) (b : Byte) (src : Bool) : (s.classify b src).port = s.port := rfl

/-! ## leaveFrame -/

@[simp] theorem State.leaveFrame_params (s : State) : (s.leaveFrame).params = s.params := rfl
@[simp] theorem State.leaveFrame_acc (s : State) : (s.leaveFrame).acc = s.acc := rfl
@[simp] theorem State.leaveFrame_cursor (s : State) : (s.leaveFrame).cursor = 0 := rfl
@[simp] theorem State.leaveFrame_binMode (s : State) : (s.leaveFrame).binMode = false := rfl
@[simp] theorem State.leaveFrame_comment (s : State) : (s.leaveFrame).comment = s.comment := rfl
@[simp] theorem State.leaveFrame_frameLen (s : State) : (s.leaveFrame).frameLen = 0 := rfl
@[simp] theorem State.leaveFrame_frameSrc (s : State) : (s.leaveFrame).frameSrc = s.frameSrc := rfl
@[simp] theorem State.leaveFrame_lastAcceptedLine (s : State) : (s.leaveFrame).lastAcceptedLine = s.lastAcceptedLine := rfl
@[simp] theorem State.leaveFrame_awaiting (s : State) : (s.leaveFrame).awaiting = s.awaiting := rfl
@[simp] theorem State.leaveFrame_pendingResendLine (s : State) : (s.leaveFrame).pendingResendLine = s.pendingResendLine := rfl
@[simp] theorem State.leaveFrame_skipCount (s : State) : (s.leaveFrame).skipCount = s.skipCount := rfl
@[simp] theorem State.leaveFrame_consecutiveFormatErrors (s : State) : (s.leaveFrame).consecutiveFormatErrors = s.consecutiveFormatErrors := rfl
@[simp] theorem State.leaveFrame_slots (s : State) : (s.leaveFrame).slots = s.slots := rfl
@[simp] theorem State.leaveFrame_head (s : State) : (s.leaveFrame).head = s.head := rfl
@[simp] theorem State.leaveFrame_count (s : State) : (s.leaveFrame).count = s.count := rfl
@[simp] theorem State.leaveFrame_peekValid (s : State) : (s.leaveFrame).peekValid = s.peekValid := rfl
@[simp] theorem State.leaveFrame_payloadBusy (s : State) : (s.leaveFrame).payloadBusy = s.payloadBusy := rfl
@[simp] theorem State.leaveFrame_cfgChecksumMandatory (s : State) : (s.leaveFrame).cfgChecksumMandatory = s.cfgChecksumMandatory := rfl
@[simp] theorem State.leaveFrame_popFault (s : State) : (s.leaveFrame).popFault = s.popFault := rfl
@[simp] theorem State.leaveFrame_response (s : State) : (s.leaveFrame).response = s.response := rfl
@[simp] theorem State.leaveFrame_events (s : State) : (s.leaveFrame).events = s.events := rfl
@[simp] theorem State.leaveFrame_work (s : State) : (s.leaveFrame).work = s.work := rfl
@[simp] theorem State.leaveFrame_port (s : State) : (s.leaveFrame).port = s.port := rfl

/-! ## startComment -/

@[simp] theorem State.startComment_params (s : State) : (s.startComment).params = s.params := rfl
@[simp] theorem State.startComment_acc (s : State) : (s.startComment).acc = s.acc := rfl
@[simp] theorem State.startComment_cursor (s : State) : (s.startComment).cursor = s.cursor := rfl
@[simp] theorem State.startComment_binMode (s : State) : (s.startComment).binMode = s.binMode := rfl
@[simp] theorem State.startComment_comment (s : State) : (s.startComment).comment = true := rfl
@[simp] theorem State.startComment_frameLen (s : State) : (s.startComment).frameLen = s.frameLen := rfl
@[simp] theorem State.startComment_frameSrc (s : State) : (s.startComment).frameSrc = s.frameSrc := rfl
@[simp] theorem State.startComment_lastAcceptedLine (s : State) : (s.startComment).lastAcceptedLine = s.lastAcceptedLine := rfl
@[simp] theorem State.startComment_awaiting (s : State) : (s.startComment).awaiting = s.awaiting := rfl
@[simp] theorem State.startComment_pendingResendLine (s : State) : (s.startComment).pendingResendLine = s.pendingResendLine := rfl
@[simp] theorem State.startComment_skipCount (s : State) : (s.startComment).skipCount = s.skipCount := rfl
@[simp] theorem State.startComment_consecutiveFormatErrors (s : State) : (s.startComment).consecutiveFormatErrors = s.consecutiveFormatErrors := rfl
@[simp] theorem State.startComment_slots (s : State) : (s.startComment).slots = s.slots := rfl
@[simp] theorem State.startComment_head (s : State) : (s.startComment).head = s.head := rfl
@[simp] theorem State.startComment_count (s : State) : (s.startComment).count = s.count := rfl
@[simp] theorem State.startComment_peekValid (s : State) : (s.startComment).peekValid = s.peekValid := rfl
@[simp] theorem State.startComment_payloadBusy (s : State) : (s.startComment).payloadBusy = s.payloadBusy := rfl
@[simp] theorem State.startComment_cfgChecksumMandatory (s : State) : (s.startComment).cfgChecksumMandatory = s.cfgChecksumMandatory := rfl
@[simp] theorem State.startComment_popFault (s : State) : (s.startComment).popFault = s.popFault := rfl
@[simp] theorem State.startComment_response (s : State) : (s.startComment).response = s.response := rfl
@[simp] theorem State.startComment_events (s : State) : (s.startComment).events = s.events := rfl
@[simp] theorem State.startComment_work (s : State) : (s.startComment).work = s.work := rfl
@[simp] theorem State.startComment_port (s : State) : (s.startComment).port = s.port := rfl

/-! ## softReset -/

@[simp] theorem State.softReset_params (s : State) : (s.softReset).params = s.params := rfl
@[simp] theorem State.softReset_acc (s : State) : (s.softReset).acc = s.acc := rfl
@[simp] theorem State.softReset_cursor (s : State) : (s.softReset).cursor = 0 := rfl
@[simp] theorem State.softReset_binMode (s : State) : (s.softReset).binMode = false := rfl
@[simp] theorem State.softReset_comment (s : State) : (s.softReset).comment = false := rfl
@[simp] theorem State.softReset_frameLen (s : State) : (s.softReset).frameLen = 0 := rfl
@[simp] theorem State.softReset_frameSrc (s : State) : (s.softReset).frameSrc = false := rfl
@[simp] theorem State.softReset_lastAcceptedLine (s : State) : (s.softReset).lastAcceptedLine = 0 := rfl
@[simp] theorem State.softReset_awaiting (s : State) : (s.softReset).awaiting = false := rfl
@[simp] theorem State.softReset_pendingResendLine (s : State) : (s.softReset).pendingResendLine = 0 := rfl
@[simp] theorem State.softReset_skipCount (s : State) : (s.softReset).skipCount = 0 := rfl
@[simp] theorem State.softReset_consecutiveFormatErrors (s : State) : (s.softReset).consecutiveFormatErrors = 0 := rfl
@[simp] theorem State.softReset_slots (s : State) : (s.softReset).slots = s.slots := rfl
@[simp] theorem State.softReset_head (s : State) : (s.softReset).head = 0 := rfl
@[simp] theorem State.softReset_count (s : State) : (s.softReset).count = 0 := rfl
@[simp] theorem State.softReset_peekValid (s : State) : (s.softReset).peekValid = false := rfl
@[simp] theorem State.softReset_payloadBusy (s : State) : (s.softReset).payloadBusy = false := rfl
@[simp] theorem State.softReset_cfgChecksumMandatory (s : State) : (s.softReset).cfgChecksumMandatory = false := rfl
@[simp] theorem State.softReset_popFault (s : State) : (s.softReset).popFault = false := rfl
@[simp] theorem State.softReset_response (s : State) : (s.softReset).response = s.response := rfl
@[simp] theorem State.softReset_events (s : State) : (s.softReset).events = s.events := rfl
@[simp] theorem State.softReset_work (s : State) : (s.softReset).work = {} := rfl
@[simp] theorem State.softReset_port (s : State) : (s.softReset).port = s.port := rfl

end Sys2Proof.Machine
end

