-- ==== Sys2Proof/Laws/Ops.lean ====
section
/-! SUPPORT. For each shared operation one lemma that says once everything it can do, so that later proofs cite it and
do not unfold the operation. -/

namespace Sys2Proof.Machine

/-! ## Words -/

/-- The mask of the wire forms (R103) keeps bits 7 and 12 of a bitfield-1 word. -/
theorem wireForm_mask (w : Half) :
    w &&& 0x1080 = bif w.getLsbD 7 then (bif w.getLsbD 12 then 0x1080 else 0x0080)
      else (bif w.getLsbD 12 then 0x1000 else 0) := by
  refine BitVec.eq_of_getLsbD_eq fun i hi => ?_
  rw [BitVec.getLsbD_and]
  interval_cases i <;> cases w.getLsbD 7 <;> cases w.getLsbD 12 <;> first | rfl | exact Bool.and_false _

/-! ## Frame lengths -/

/-- `FS.need` by the two bits that decide it (R120). -/
theorem fsNeed_eq (h : List Byte) : fsNeed h =
    bif (headerBf1 h).getLsbD 12 then (bif (headerBf1 h).getLsbD 15 then 5 else 4) else 2 := by
  unfold fsNeed
  cases (headerBf1 h).getLsbD 12 <;> cases (headerBf1 h).getLsbD 15 <;> rfl

/-- The length of a frame once `FS.need` of its bytes are there (R121). -/
theorem fsSize_eq {h : List Byte} (h2 : 2 ≤ h.length) (hn : fsNeed h ≤ h.length) : fsSize h = some
    (commonSize (headerBf1 h) +
      bif (headerBf1 h).getLsbD 12 then
        2 + sizeIf ((headerBf1 h).getLsbD 1) 2 + sizeIf ((headerBf1 h).getLsbD 2) 2
          + sizeIf ((headerBf2 h).getLsbD 0) 4 + sizeIf ((headerBf2 h).getLsbD 1) 4
          + sizeIf ((headerBf2 h).getLsbD 2) 4
          + sizeIf ((headerBf1 h).getLsbD 15) (min Config.textCap ((headerByte h 4).toNat + 1))
      else
        sizeIf ((headerBf1 h).getLsbD 1) 1 + sizeIf ((headerBf1 h).getLsbD 2) 1
          + sizeIf ((headerBf1 h).getLsbD 15) Config.textV1) := by
  rw [fsNeed_eq] at hn
  have h0 : ¬ h.length < 2 := by omega
  cases c12 : (headerBf1 h).getLsbD 12 with
  | false => simp only [fsSize, if_neg h0, c12, cond_false, Bool.false_eq_true, if_false, Nat.add_assoc]
  | true =>
    cases c15 : (headerBf1 h).getLsbD 15 with
    | false =>
      simp only [c12, c15, cond_true, cond_false] at hn
      have h4 : ¬ h.length < 4 := by omega
      simp only [fsSize, if_neg h0, if_neg h4, c12, c15, cond_true, Bool.false_eq_true, if_false, if_true, sizeIf,
        Nat.add_assoc, Nat.add_zero]
    | true =>
      simp only [c12, c15, cond_true] at hn
      have h4 : ¬ h.length < 4 := by omega
      have h5 : ¬ h.length < 5 := by omega
      simp only [fsSize, if_neg h0, if_neg h4, if_neg h5, c12, c15, cond_true, if_true, sizeIf, Nat.add_assoc]

/-! ## Steps and outcomes -/

theorem finish_next {x : Except Fault State} {t : State} : finish x = .next t ↔ x = .ok t := by
  cases x <;> simp [finish]

theorem finishRow_next {s t : State} {x : Except Fault Work} :
    finishRow s x = .next t ↔ ∃ w, x = .ok w ∧ t = { s.consume with work := w } := by
  cases x <;> simp [finishRow, eq_comm]

/-- All that a row of an ASCII decode can do by itself. -/
theorem asciiRow_next {s t : State} {row : List Byte → Work → Work} :
    asciiRow s row = .next t ↔ s.work.len ≤ s.params.accLen ∧
      t = { s.consume with work := row (Memory.slice s.acc 0 s.work.len) s.work } := by
  unfold asciiRow memBytes
  by_cases h : s.work.len ≤ s.params.accLen <;> simp [h, finishRow, eq_comm]

/-- A step that goes on is exec of the decoded instruction. -/
theorem step_next {s t : State} : step s = .next t ↔ ∃ i, decode s.fetch = .ok i ∧ exec i s = .next t := by
  unfold step
  cases decode s.fetch <;> simp

/-! ## Queue -/

/-- All that push can do. -/
theorem State.push_cases {s t : State} {r : Record} (h : s.push r = .ok t) :
    s.count < s.params.qcap ∧ s.tail < s.slots.length ∧
      t = { s with
        slots := s.slots.set s.tail r, count := s.count + 1, payloadBusy := s.payloadBusy || r.hasText } := by
  unfold State.push at h
  split at h
  next hc =>
    split at h
    next ht => exact ⟨hc, ht, by injection h with h; exact h.symm⟩
    · cases h
  · cases h

/-- A push with room succeeds. -/
theorem State.push_eq {s : State} (r : Record) (hc : s.count < s.params.qcap) (hs : s.slots.length = s.params.qcap) :
    s.push r = .ok { s with
      slots := s.slots.set s.tail r, count := s.count + 1, payloadBusy := s.payloadBusy || r.hasText } := by
  have ht : s.tail < s.slots.length := by
    rw [hs]
    exact Nat.mod_lt _ (by omega)
  simp [State.push, hc, ht]

/-- All that PEEK can do. -/
theorem execPeek_next {s t : State} (h : execPeek s = .next t) :
    (s.count = 0 ∧ t = s.consume.respond .empty) ∨
    (s.count ≠ 0 ∧ ∃ r text, s.slots[s.head]? = some r ∧ s.peekText r = .ok text ∧
      t = { s.consume with peekValid := true, response := .record r.reported text }) := by
  by_cases hc : s.count = 0
  · exact .inl ⟨hc, by simpa [execPeek, hc, eq_comm] using h⟩
  · refine .inr ⟨hc, ?_⟩
    cases hr : s.slots[s.head]? with
    | none => simp [execPeek, hc, hr] at h
    | some r =>
      have hp : s.consume.peekText r = s.peekText r := rfl
      cases ht : s.peekText r with
      | error f => simp [execPeek, hc, hr, hp, ht] at h
      | ok text => exact ⟨r, text, rfl, ht, by simpa [execPeek, hc, hr, hp, ht, eq_comm] using h⟩

/-- All that POP can do. -/
theorem execPop_next {s t : State} (h : execPop s = .next t) :
    (s.peekValid = true ∧ ∃ r, s.slots[s.head]? = some r ∧
      t = { s.consume with
        head := (s.head + 1) % s.params.qcap, count := s.count - 1, peekValid := false
        payloadBusy := s.payloadBusy && !r.hasText, response := .ok }) ∨
    (s.peekValid = false ∧ t = { s.consume with popFault := true, response := .fault }) := by
  cases hp : s.peekValid with
  | false => exact .inr ⟨rfl, by simpa [execPop, hp, eq_comm] using h⟩
  | true =>
    refine .inl ⟨rfl, ?_⟩
    cases hr : s.slots[s.head]? with
    | none => simp [execPop, hp, hr] at h
    | some r => exact ⟨r, rfl, by simpa [execPop, hp, hr, eq_comm] using h⟩

/-! ## Failure and sequencing -/

/-- A line that fails validation fails with one of the four kinds of decode failure (R213, R331). -/
theorem asciiFailure_kinds {m src : Bool} {w : Work} {k : ErrorKind} (h : asciiFailure m src w = some k) :
    k = .checksumMismatch ∨ k = .missingChecksum ∨ k = .fieldFormatError ∨ k = .missingRequiredField := by
  unfold asciiFailure checksumFailure at h
  grind

/-- All that FAIL can do (R240). -/
theorem State.fail_cases (s : State) (k : ErrorKind) :
    ((s.countFailure k).consecutiveFormatErrors.toNat < 3 ∧ s.fail k = (s.countFailure k).resend) ∨
    (¬ (s.countFailure k).consecutiveFormatErrors.toNat < 3 ∧ s.fail k = (s.countFailure k).forceAccept) := by
  unfold State.fail Config.errThreshold
  split
  next h => exact .inl ⟨h, rfl⟩
  next h => exact .inr ⟨h, rfl⟩

@[simp] theorem State.fail_params (s : State) (k : ErrorKind) : (s.fail k).params = s.params := by
  rcases s.fail_cases k with ⟨-, h⟩ | ⟨-, h⟩ <;> simp [h]
@[simp] theorem State.fail_acc (s : State) (k : ErrorKind) : (s.fail k).acc = s.acc := by
  rcases s.fail_cases k with ⟨-, h⟩ | ⟨-, h⟩ <;> simp [h]
@[simp] theorem State.fail_cursor (s : State) (k : ErrorKind) : (s.fail k).cursor = s.cursor := by
  rcases s.fail_cases k with ⟨-, h⟩ | ⟨-, h⟩ <;> simp [h]
@[simp] theorem State.fail_binMode (s : State) (k : ErrorKind) : (s.fail k).binMode = s.binMode := by
  rcases s.fail_cases k with ⟨-, h⟩ | ⟨-, h⟩ <;> simp [h]
@[simp] theorem State.fail_comment (s : State) (k : ErrorKind) : (s.fail k).comment = s.comment := by
  rcases s.fail_cases k with ⟨-, h⟩ | ⟨-, h⟩ <;> simp [h]
@[simp] theorem State.fail_frameLen (s : State) (k : ErrorKind) : (s.fail k).frameLen = s.frameLen := by
  rcases s.fail_cases k with ⟨-, h⟩ | ⟨-, h⟩ <;> simp [h]
@[simp] theorem State.fail_slots (s : State) (k : ErrorKind) : (s.fail k).slots = s.slots := by
  rcases s.fail_cases k with ⟨-, h⟩ | ⟨-, h⟩ <;> simp [h]
@[simp] theorem State.fail_head (s : State) (k : ErrorKind) : (s.fail k).head = s.head := by
  rcases s.fail_cases k with ⟨-, h⟩ | ⟨-, h⟩ <;> simp [h]
@[simp] theorem State.fail_count (s : State) (k : ErrorKind) : (s.fail k).count = s.count := by
  rcases s.fail_cases k with ⟨-, h⟩ | ⟨-, h⟩ <;> simp [h]
@[simp] theorem State.fail_payloadBusy (s : State) (k : ErrorKind) : (s.fail k).payloadBusy = s.payloadBusy := by
  rcases s.fail_cases k with ⟨-, h⟩ | ⟨-, h⟩ <;> simp [h]
@[simp] theorem State.fail_peekValid (s : State) (k : ErrorKind) : (s.fail k).peekValid = s.peekValid := by
  rcases s.fail_cases k with ⟨-, h⟩ | ⟨-, h⟩ <;> simp [h]
@[simp] theorem State.fail_work (s : State) (k : ErrorKind) : (s.fail k).work = s.work := by
  rcases s.fail_cases k with ⟨-, h⟩ | ⟨-, h⟩ <;> simp [h]
@[simp] theorem State.fail_port (s : State) (k : ErrorKind) : (s.fail k).port = s.port := by
  rcases s.fail_cases k with ⟨-, h⟩ | ⟨-, h⟩ <;> simp [h]
@[simp] theorem State.fail_response (s : State) (k : ErrorKind) : (s.fail k).response = s.response := by
  rcases s.fail_cases k with ⟨-, h⟩ | ⟨-, h⟩ <;> simp [h]

/-- All that SEQ can do (R230), branch by branch, guards included. -/
theorem State.sequence_cases {s t : State} {r : Record} (h : s.sequence r = .ok t) :
    (r.isLineReset = true ∧ t = s.clearErrors.lineReset r) ∨
    (r.isLineReset = false ∧ r.numbered = false ∧ ∃ u, s.clearErrors.push r = .ok u ∧ t = u.emit (.acknowledged none)) ∨
    (r.isLineReset = false ∧ r.numbered = true ∧ s.inSequence r = true ∧
      ∃ u, (s.clearErrors.advanceTo r.line).push r = .ok u ∧ t = u.emit (.acknowledged (some r.line))) ∨
    (r.isLineReset = false ∧ r.numbered = true ∧ s.inSequence r = false ∧ s.awaiting = false ∧
      t = s.clearErrors.gap) ∨
    (r.isLineReset = false ∧ r.numbered = true ∧ s.inSequence r = false ∧ s.awaiting = true ∧
      t = s.clearErrors.skip r) := by
  cases h1 : r.isLineReset with
  | true => exact .inl ⟨rfl, by simpa [State.sequence, h1, eq_comm] using h⟩
  | false =>
    cases h2 : r.numbered with
    | false =>
      refine .inr (.inl ⟨rfl, rfl, ?_⟩)
      cases hp : s.clearErrors.push r with
      | error f => simp [State.sequence, h1, h2, State.unnumbered, hp] at h
      | ok u => exact ⟨u, rfl, by simpa [State.sequence, h1, h2, State.unnumbered, hp, eq_comm] using h⟩
    | true =>
      cases h3 : s.inSequence r with
      | true =>
        refine .inr (.inr (.inl ⟨rfl, rfl, rfl, ?_⟩))
        cases hp : (s.clearErrors.advanceTo r.line).push r with
        | error f => simp [State.sequence, h1, h2, h3, State.accept, hp] at h
        | ok u => exact ⟨u, rfl, by simpa [State.sequence, h1, h2, h3, State.accept, hp, eq_comm] using h⟩
      | false =>
        cases h4 : s.awaiting with
        | false =>
          exact .inr (.inr (.inr (.inl ⟨rfl, rfl, rfl, rfl, by simpa [State.sequence, h1, h2, h3, h4, eq_comm] using h⟩)))
        | true =>
          exact .inr (.inr (.inr (.inr ⟨rfl, rfl, rfl, rfl, by simpa [State.sequence, h1, h2, h3, h4, eq_comm] using h⟩)))

/-- With room in the queue SEQ never stops. -/
theorem State.sequence_completes (s : State) (r : Record) (hc : s.count < s.params.qcap)
    (hs : s.slots.length = s.params.qcap) : ∃ t, s.sequence r = .ok t := by
  have h1 := State.push_eq (s := s.clearErrors) r hc hs
  have h2 := State.push_eq (s := s.clearErrors.advanceTo r.line) r hc hs
  simp only [State.sequence, State.unnumbered, State.accept, h1, h2]
  split
  · exact ⟨_, rfl⟩
  · split
    · exact ⟨_, rfl⟩
    · split
      · exact ⟨_, rfl⟩
      · split <;> exact ⟨_, rfl⟩

/-! ## Decoding rows -/

theorem runRows_cons {w : Work} {row : Work → Except Fault Work} {rows : List (Work → Except Fault Work)} {u : Work} :
    runRows w (row :: rows) = .ok u ↔ ∃ v, row w = .ok v ∧ runRows v rows = .ok u := by
  simp only [runRows]
  cases row w <;> simp

/-- All that a field row does when its bit is clear or set. -/
theorem fieldIf_eq (present : Bool) (w : Work) (read : Except Fault Work) :
    fieldIf present w read = if present = true then read else .ok w := rfl

theorem wordField_eq {size : Nat} (m : List Host.Cell) {w : Work} (put : Record → Word → Record) (h : w.off + 4 ≤ size) :
    wordField size m w put = .ok { w with
      off := w.off + 4
      cmd := put w.cmd (Memory.read m (w.off + 3) ++ Memory.read m (w.off + 2) ++ Memory.read m (w.off + 1)
        ++ Memory.read m w.off) } := by simp [wordField, memRead4_eq m h]

theorem halfField_eq {size : Nat} (m : List Host.Cell) {w : Work} (put : Record → Half → Record) (h : w.off + 2 ≤ size) :
    halfField size m w put = .ok { w with
      off := w.off + 2, cmd := put w.cmd (Memory.read m (w.off + 1) ++ Memory.read m w.off) } := by
  simp [halfField, memRead2_eq m h]

theorem byteField_eq {size : Nat} (m : List Host.Cell) {w : Work} (put : Record → Byte → Record) (h : w.off + 1 ≤ size) :
    byteField size m w put = .ok { w with off := w.off + 1, cmd := put w.cmd (Memory.read m w.off) } := by
  simp [byteField, memRead1_eq m h]

/-- A run of digits: it goes on over the digits and stops at what is none. -/
theorem digitRun_append (v n : Nat) (ds rest : List Byte) (hd : ∀ d ∈ ds, isDigit d = true)
    (hr : ∀ b, rest.head? = some b → isDigit b = false) :
    digitRun v n (ds ++ rest) = (ds.foldl (fun v d => 10 * v + digitVal d) v, n + ds.length, rest) := by
  induction ds generalizing v n with
  | nil =>
    cases rest with
    | nil => rfl
    | cons b t => simp [digitRun, hr b rfl]
  | cons d ds ih =>
    simp only [List.cons_append, digitRun, hd d (by simp), if_true]
    rw [ih _ _ fun e he => hd e (by simp [he])]
    simp; omega

theorem findByte_some {ch : Byte} {l : List Byte} {p : Nat} (h : l[p]? = some ch) (hq : ∀ q < p, l[q]? ≠ some ch) :
    findByte ch l = some p := by
  obtain ⟨hp, h⟩ := List.getElem?_eq_some_iff.1 h
  simp only [findByte, List.findIdx?_eq_some_iff_getElem]
  refine ⟨hp, by simp [h], fun j hj => ?_⟩
  have := hq j hj
  simpa [List.getElem?_eq_getElem (Nat.lt_trans hj hp)] using this

theorem findByte_none {ch : Byte} {l : List Byte} (h : ∀ q : Nat, l[q]? ≠ some ch) : findByte ch l = none := by
  simp only [findByte, List.findIdx?_eq_none_iff]
  intro x hx
  obtain ⟨q, hq, rfl⟩ := List.mem_iff_getElem.1 hx
  simpa [List.getElem?_eq_getElem hq] using h q

/-! ## Intake -/

/-- All that storing a byte can do (R265, R272). -/
theorem State.storeByte_cases {s t : State} {b : Byte} (h : s.storeByte b = .ok t) :
    s.cursor.toNat < s.params.accLen ∧
      t = { s with acc := Memory.write s.acc s.cursor.toNat b, cursor := s.cursor + 1 } := by
  unfold State.storeByte at h
  split at h
  next u hu =>
    obtain ⟨hlt, rfl⟩ := State.storeAcc_cases hu
    exact ⟨hlt, by injection h with h; exact h.symm⟩
  · cases h

theorem State.storeByte_eq {s : State} (b : Byte) (h : s.cursor.toNat < s.params.accLen) :
    s.storeByte b = .ok { s with acc := Memory.write s.acc s.cursor.toNat b, cursor := s.cursor + 1 } := by
  simp [State.storeByte, State.storeAcc_eq b h]

/-- All that learning a frame's length can do (R266). -/
theorem State.learnSize_cases (s : State) :
    (∃ n, s.frameLen = 0 ∧ 2 ≤ s.cursor.toNat ∧ s.cursor.toNat = fsNeed (Memory.slice s.acc 0 s.cursor.toNat) ∧
      fsSize (Memory.slice s.acc 0 s.cursor.toNat) = some n ∧
      s.learnSize = { s with frameLen := BitVec.ofNat 8 n }) ∨
    s.learnSize = s := by
  unfold State.learnSize
  simp only
  split
  next h =>
    cases hn : fsSize (Memory.slice s.acc 0 s.cursor.toNat) with
    | some n => exact .inl ⟨n, h.1, h.2.1, h.2.2, rfl, rfl⟩
    | none => exact .inr rfl
  · exact .inr rfl

/-- All that the end of a binary frame can do (R267). -/
theorem State.completeBinary_cases {s t : State} {l : Nat} (h : s.completeBinary l = .ok t) :
    2 ≤ l ∧ l ≤ s.params.accLen ∧
    ((frameValid (Memory.slice s.acc 0 l) = false ∧ t = s.leaveFrame.fail .checksumMismatch) ∨
     (frameValid (Memory.slice s.acc 0 l) = true ∧ ∃ w, binaryDecode s.params.accLen s.acc = .ok w ∧
      (s.leaveFrame.terminateText w l).sequence w.cmd = .ok t)) := by
  unfold State.completeBinary at h
  split at h
  · cases h
  next hl =>
    split at h
    · cases h
    next frame hf =>
      obtain ⟨hle, rfl⟩ := memBytes_cases hf
      refine ⟨by omega, by omega, ?_⟩
      cases hv : frameValid (Memory.slice s.acc 0 l) with
      | false => exact .inl ⟨rfl, by simpa [hv, eq_comm] using h⟩
      | true =>
        refine .inr ⟨rfl, ?_⟩
        cases hw : binaryDecode s.params.accLen s.acc with
        | error f => simp [hv, hw] at h
        | ok w => exact ⟨w, rfl, by simpa [hv, hw] using h⟩

/-- All that the end of an ASCII line can do (R269). -/
theorem State.completeAscii_cases {s t : State} {n : Nat} (h : s.completeAscii n = .ok t) :
    n ≤ s.params.accLen ∧
    ((∃ k, asciiFailure s.cfgChecksumMandatory s.frameSrc (asciiDecode (Memory.slice s.acc 0 n)) = some k ∧
      t = s.fail k) ∨
     (asciiFailure s.cfgChecksumMandatory s.frameSrc (asciiDecode (Memory.slice s.acc 0 n)) = none ∧
      s.sequence (asciiDecode (Memory.slice s.acc 0 n)).cmd = .ok t)) := by
  unfold State.completeAscii at h
  split at h
  · cases h
  next c hc =>
    obtain ⟨hle, rfl⟩ := memBytes_cases hc
    refine ⟨by omega, ?_⟩
    cases hk : asciiFailure s.cfgChecksumMandatory s.frameSrc (asciiDecode (Memory.slice s.acc 0 n)) with
    | some k => exact .inl ⟨k, rfl, by simpa [hk, eq_comm] using h⟩
    | none => exact .inr ⟨rfl, by simpa [hk] using h⟩

/-- All that a terminator can do. -/
theorem State.endLine_cases {s t : State} (h : s.endLine = .ok t) :
    (s.cursor = 0 ∧ t = s) ∨
    (s.cursor ≠ 0 ∧ ({ s with cursor := 0 } : State).completeAscii s.cursor.toNat = .ok t) := by
  unfold State.endLine at h
  split at h
  next hc => exact .inl ⟨hc, by injection h with h; exact h.symm⟩
  next hc => exact .inr ⟨hc, h⟩

/-- All that a byte of an ASCII line can do, in R260's order. -/
theorem State.asciiByte_cases {s t : State} {b : Byte} (h : s.asciiByte b = .ok t) :
    (s.comment = true ∧ endsComment b = true ∧ s.endComment = .ok t) ∨
    (s.comment = true ∧ endsComment b = false ∧ t = s) ∨
    (s.comment = false ∧ endsLine b = true ∧ s.endLine = .ok t) ∨
    (s.comment = false ∧ endsLine b = false ∧ b = chSemicolon ∧ t = s.startComment) ∨
    (s.comment = false ∧ endsLine b = false ∧ b ≠ chSemicolon ∧ s.cursor.toNat = s.params.maxCmdLen ∧
      t = s.overflow) ∨
    (s.comment = false ∧ endsLine b = false ∧ b ≠ chSemicolon ∧ s.cursor.toNat ≠ s.params.maxCmdLen ∧
      s.storeByte b = .ok t) := by
  unfold State.asciiByte at h
  split at h
  next hc =>
    split at h
    next he => exact .inl ⟨hc, he, h⟩
    next he => exact .inr (.inl ⟨hc, by simpa using he, by injection h with h; exact h.symm⟩)
  next hc =>
    have hc : s.comment = false := by simpa using hc
    split at h
    next he => exact .inr (.inr (.inl ⟨hc, he, h⟩))
    next he =>
      have he : endsLine b = false := by simpa using he
      split at h
      next hs => exact .inr (.inr (.inr (.inl ⟨hc, he, hs, by injection h with h; exact h.symm⟩)))
      next hs =>
        split at h
        next hm => exact .inr (.inr (.inr (.inr (.inl ⟨hc, he, hs, hm, by injection h with h; exact h.symm⟩))))
        next hm => exact .inr (.inr (.inr (.inr (.inr ⟨hc, he, hs, hm, h⟩))))

/-- All that a byte of a binary frame can do (R265 to R267). -/
theorem State.binaryByte_cases {s t : State} {b : Byte} (h : s.binaryByte b = .ok t) :
    ∃ u, s.storeByte b = .ok u ∧
      ((u.learnSize.frameLen ≠ 0 ∧ u.learnSize.cursor = u.learnSize.frameLen ∧
        u.learnSize.completeBinary u.learnSize.frameLen.toNat = .ok t) ∨
       (¬ (u.learnSize.frameLen ≠ 0 ∧ u.learnSize.cursor = u.learnSize.frameLen) ∧ t = u.learnSize)) := by
  unfold State.binaryByte at h
  split at h
  next u hu =>
    refine ⟨u, hu, ?_⟩
    unfold State.completeIfWhole at h
    split at h
    next hw => exact .inl ⟨hw.1, hw.2, h⟩
    next hw => exact .inr ⟨hw, by injection h with h; exact h.symm⟩
  · cases h

/-- All that BYTE can do (R260): a refusal, or the intake of the byte. -/
theorem execByte_next {s t : State} {b : Byte} {src : Bool} (h : execByte b src s = .next t) :
    (s.count = s.params.qcap ∧ t = s.consume.respond (.refused .queueFull)) ∨
    (s.count ≠ s.params.qcap ∧ s.payloadBusy = true ∧ t = s.consume.respond (.refused .payloadInUse)) ∨
    (s.count ≠ s.params.qcap ∧ s.payloadBusy = false ∧ (s.consume.respond .accepted).intake b src = .ok t) := by
  unfold execByte State.refusal at h
  by_cases hc : s.count = s.params.qcap
  · exact .inl ⟨hc, by simpa [hc, eq_comm] using h⟩
  · refine .inr ?_
    cases hp : s.payloadBusy with
    | true => exact .inl ⟨hc, rfl, by simpa [hc, hp, eq_comm] using h⟩
    | false => exact .inr ⟨hc, rfl, by simpa [hc, hp, finish_next] using h⟩

end Sys2Proof.Machine
end

