-- ==== Sys2Proof/Laws/Ascii.lean ====
section
/-! SUPPORT. ASCII decode: for each of its rows one lemma that says everything it does, and for a line's whole decode one
that gives each field in terms of what its letter gives. -/

namespace Sys2Proof.Machine

/-! ## ASCII rows -/

/-- What a letter gives: nothing when it is not below `lim`, else what `parse` reads right after its first
occurrence. -/
def letterRead {α : Type} (parse : List Byte → Option α) (ch : Byte) (body : List Byte) (lim : Nat) :
    Option (Option α) :=
  (findByte ch (body.take lim)).map fun p => parse (body.drop (p + 1))

/-- All that a letter with an integer does, for a `put` that writes the field `set` of a record. -/
theorem tokInt_eq {β : Type} (ch : Byte) (c : List Byte) (w : Work) (val : Int → β) (get : Record → Option β)
    (set : Record → Option β → Record) (hs : ∀ r, set r (get r) = r) :
    tokInt ch c w (fun d v => set d (some (val v))) = { w with
      fmt := w.fmt || (letterRead parseInt ch (w.body c) w.limit == some none)
      cmd := set w.cmd (((letterRead parseInt ch (w.body c) w.limit).join.map val).or (get w.cmd)) } := by
  unfold tokInt letterRead
  cases findByte ch ((w.body c).take w.limit) with
  | none => simp [hs]
  | some p =>
    cases h : parseInt ((w.body c).drop (p + 1)) <;> simp [h, hs]

/-- All that a letter with a decimal does. -/
theorem tokFloat_eq (ch : Byte) (c : List Byte) (w : Work) (get : Record → Option Word)
    (set : Record → Option Word → Record) (hs : ∀ r, set r (get r) = r) :
    tokFloat ch c w (fun d v => set d (some v)) = { w with
      fmt := w.fmt || (letterRead parseFloat ch (w.body c) w.limit == some none)
      cmd := set w.cmd ((letterRead parseFloat ch (w.body c) w.limit).join.or (get w.cmd)) } := by
  unfold tokFloat letterRead
  cases findByte ch ((w.body c).take w.limit) with
  | none => simp [hs]
  | some p =>
    cases h : parseFloat ((w.body c).drop (p + 1)) <;> simp [h, hs]

/-- All that the row of N does. -/
theorem rowTokN_eq (c : List Byte) (w : Work) : rowTokN c w = { w with
    fmt := w.fmt || (letterRead parseInt 0x4E (w.body c) w.limit == some none)
    cmd := { w.cmd with
      lineNumber :=
        ((letterRead parseInt 0x4E (w.body c) w.limit).join.map (BitVec.ofInt 32)).or w.cmd.lineNumber } } :=
  tokInt_eq _ c w (BitVec.ofInt 32) (·.lineNumber) (fun r o => { r with lineNumber := o }) fun _ => rfl

/-- All that the row of G does. -/
theorem rowTokG_eq (c : List Byte) (w : Work) : rowTokG c w = { w with
    fmt := w.fmt || (letterRead parseInt 0x47 (w.body c) w.limit == some none)
    cmd := { w.cmd with
      gCode := ((letterRead parseInt 0x47 (w.body c) w.limit).join.map (BitVec.ofInt 16)).or w.cmd.gCode } } :=
  tokInt_eq _ c w (BitVec.ofInt 16) (·.gCode) (fun r o => { r with gCode := o }) fun _ => rfl

/-- All that the row of T does. -/
theorem rowTokT_eq (c : List Byte) (w : Work) : rowTokT c w = { w with
    fmt := w.fmt || (letterRead parseInt 0x54 (w.body c) w.limit == some none)
    cmd := { w.cmd with
      toolIndex := ((letterRead parseInt 0x54 (w.body c) w.limit).join.map (BitVec.ofInt 8)).or w.cmd.toolIndex } } :=
  tokInt_eq _ c w (BitVec.ofInt 8) (·.toolIndex) (fun r o => { r with toolIndex := o }) fun _ => rfl

/-- All that the row of S does. -/
theorem rowTokS_eq (c : List Byte) (w : Work) : rowTokS c w = { w with
    fmt := w.fmt || (letterRead parseInt 0x53 (w.body c) w.limit == some none)
    cmd := { w.cmd with
      sValue := ((letterRead parseInt 0x53 (w.body c) w.limit).join.map (BitVec.ofInt 32)).or w.cmd.sValue } } :=
  tokInt_eq _ c w (BitVec.ofInt 32) (·.sValue) (fun r o => { r with sValue := o }) fun _ => rfl

/-- All that the row of P does. -/
theorem rowTokP_eq (c : List Byte) (w : Work) : rowTokP c w = { w with
    fmt := w.fmt || (letterRead parseInt 0x50 (w.body c) w.limit == some none)
    cmd := { w.cmd with
      pValue := ((letterRead parseInt 0x50 (w.body c) w.limit).join.map (BitVec.ofInt 32)).or w.cmd.pValue } } :=
  tokInt_eq _ c w (BitVec.ofInt 32) (·.pValue) (fun r o => { r with pValue := o }) fun _ => rfl

/-- All that the row of X does. -/
theorem rowTokX_eq (c : List Byte) (w : Work) : rowTokX c w = { w with
    fmt := w.fmt || (letterRead parseFloat 0x58 (w.body c) w.limit == some none)
    cmd := { w.cmd with x := (letterRead parseFloat 0x58 (w.body c) w.limit).join.or w.cmd.x } } :=
  tokFloat_eq _ c w (·.x) (fun r o => { r with x := o }) fun _ => rfl

/-- All that the row of Y does. -/
theorem rowTokY_eq (c : List Byte) (w : Work) : rowTokY c w = { w with
    fmt := w.fmt || (letterRead parseFloat 0x59 (w.body c) w.limit == some none)
    cmd := { w.cmd with y := (letterRead parseFloat 0x59 (w.body c) w.limit).join.or w.cmd.y } } :=
  tokFloat_eq _ c w (·.y) (fun r o => { r with y := o }) fun _ => rfl

/-- All that the row of Z does. -/
theorem rowTokZ_eq (c : List Byte) (w : Work) : rowTokZ c w = { w with
    fmt := w.fmt || (letterRead parseFloat 0x5A (w.body c) w.limit == some none)
    cmd := { w.cmd with z := (letterRead parseFloat 0x5A (w.body c) w.limit).join.or w.cmd.z } } :=
  tokFloat_eq _ c w (·.z) (fun r o => { r with z := o }) fun _ => rfl

/-- All that the row of E does. -/
theorem rowTokE_eq (c : List Byte) (w : Work) : rowTokE c w = { w with
    fmt := w.fmt || (letterRead parseFloat 0x45 (w.body c) w.limit == some none)
    cmd := { w.cmd with e := (letterRead parseFloat 0x45 (w.body c) w.limit).join.or w.cmd.e } } :=
  tokFloat_eq _ c w (·.e) (fun r o => { r with e := o }) fun _ => rfl

/-- All that the row of F does. -/
theorem rowTokF_eq (c : List Byte) (w : Work) : rowTokF c w = { w with
    fmt := w.fmt || (letterRead parseFloat 0x46 (w.body c) w.limit == some none)
    cmd := { w.cmd with f := (letterRead parseFloat 0x46 (w.body c) w.limit).join.or w.cmd.f } } :=
  tokFloat_eq _ c w (·.f) (fun r o => { r with f := o }) fun _ => rfl

/-- All that the row of I does. -/
theorem rowTokI_eq (c : List Byte) (w : Work) : rowTokI c w = { w with
    fmt := w.fmt || (letterRead parseFloat 0x49 (w.body c) w.limit == some none)
    cmd := { w.cmd with i := (letterRead parseFloat 0x49 (w.body c) w.limit).join.or w.cmd.i } } :=
  tokFloat_eq _ c w (·.i) (fun r o => { r with i := o }) fun _ => rfl

/-- All that the row of J does. -/
theorem rowTokJ_eq (c : List Byte) (w : Work) : rowTokJ c w = { w with
    fmt := w.fmt || (letterRead parseFloat 0x4A (w.body c) w.limit == some none)
    cmd := { w.cmd with j := (letterRead parseFloat 0x4A (w.body c) w.limit).join.or w.cmd.j } } :=
  tokFloat_eq _ c w (·.j) (fun r o => { r with j := o }) fun _ => rfl

/-- All that the row of R does. -/
theorem rowTokR_eq (c : List Byte) (w : Work) : rowTokR c w = { w with
    fmt := w.fmt || (letterRead parseFloat 0x52 (w.body c) w.limit == some none)
    cmd := { w.cmd with r := (letterRead parseFloat 0x52 (w.body c) w.limit).join.or w.cmd.r } } :=
  tokFloat_eq _ c w (·.r) (fun r o => { r with r := o }) fun _ => rfl

/-- `FIND` finds the first occurrence. -/
theorem findByte_take_eq_some {ch : Byte} {l : List Byte} {lim p : Nat} :
    findByte ch (l.take lim) = some p ↔ FirstAt ch l lim p := by
  unfold findByte FirstAt
  rw [List.findIdx?_eq_some_iff_getElem]
  constructor
  · rintro ⟨hp, he, hq⟩
    simp only [List.length_take] at hp
    refine ⟨by omega, ?_, fun q h => ?_⟩
    · rw [List.getElem?_eq_getElem (by omega)]; simpa using he
    · have := hq q h
      rw [List.getElem?_eq_getElem (by omega)]; simpa using this
  · rintro ⟨hp, he, hq⟩
    obtain ⟨hl, he⟩ := List.getElem?_eq_some_iff.1 he
    refine ⟨by simp; omega, by simpa using he, fun q h => ?_⟩
    have := hq q h
    rw [List.getElem?_eq_getElem (by omega)] at this
    simpa using this

/-- `FIND` finds nothing when the byte is not there. -/
theorem findByte_take_eq_none {ch : Byte} {l : List Byte} {lim : Nat} :
    findByte ch (l.take lim) = none ↔ AbsentBelow ch l lim := by
  unfold findByte AbsentBelow
  rw [List.findIdx?_eq_none_iff]
  constructor
  · intro h q hq he
    obtain ⟨hl, he⟩ := List.getElem?_eq_some_iff.1 he
    have := h ch (List.mem_take_iff_getElem.2 ⟨q, by omega, he⟩)
    simp at this
  · intro h x hx
    obtain ⟨q, hq, rfl⟩ := List.mem_take_iff_getElem.1 hx
    have := h q (by omega)
    rw [List.getElem?_eq_getElem (by omega)] at this
    simpa using this

/-- A field that holds what its letter gives reads that letter. -/
theorem letterReads_of_letterRead {α β : Type} {parse : List Byte → Option α} {put : α → β} {ch : Byte}
    {body : List Byte} {lim : Nat} {field : Option β} (h : field = (letterRead parse ch body lim).join.map put) :
    LetterReads parse put ch body lim field := by
  subst h
  refine ⟨fun ha => ?_, fun p hp => ?_⟩
  · rw [letterRead, findByte_take_eq_none.2 ha]; rfl
  · rw [letterRead, findByte_take_eq_some.2 hp]; rfl

/-- A letter gives a failure when it is found and its number is none. -/
theorem letterRead_eq_some_none {α : Type} {parse : List Byte → Option α} {ch : Byte} {body : List Byte}
    {lim : Nat} :
    letterRead parse ch body lim = some none ↔ LetterFails parse body lim ch := by
  unfold letterRead LetterFails
  simp only [Option.map_eq_some_iff, findByte_take_eq_some]

/-- The rows that come first in a line's decode (R190): the body's end and the M. -/
theorem asciiHead_eq (c : List Byte) :
    let b := (findByte chStar c).getD c.length
    let m := letterRead parseInt 0x4D (c.take b) b
    rowTokM c (rowChecksumStar c { len := c.length }) = {
      len := c.length
      star := findByte chStar c
      bodyEnd := b
      xorBad := (findByte chStar c).any fun k => !xorPasses c k
      mpos := findByte 0x4D (c.take b)
      fmt := m == some none
      textMode := (m.join.map (BitVec.ofInt 16)).any (Config.textM.contains ·)
      cmd := { mCode := m.join.map (BitVec.ofInt 16) } } := by
  simp only [rowChecksumStar, letterRead]
  rw [List.take_take, Nat.min_self]
  cases hs : findByte chStar c <;> simp only [Option.getD, rowTokM, Work.body] <;>
    split <;> simp_all <;> split <;> simp_all

/-- All that the capture of one word does. -/
theorem captureWord_eq (code : Half) (c : List Byte) (w : Work) : captureWord code c w = { w with cmd := { w.cmd with
    textStart := if w.captures code then some (BitVec.ofNat 8 (textStartOf (w.body c) (w.mpos.getD 0)))
      else w.cmd.textStart
    textLen := if w.captures code then
        some (BitVec.ofNat 8 (textWordLen (w.body c) (textStartOf (w.body c) (w.mpos.getD 0))))
      else w.cmd.textLen } } := by
  unfold captureWord
  cases w.captures code <;> rfl

/-- All that the capture of the rest of the body does. -/
theorem captureRest_eq (code : Half) (c : List Byte) (w : Work) : captureRest code c w = { w with cmd := { w.cmd with
    textStart := if w.captures code then some (BitVec.ofNat 8 (textStartOf (w.body c) (w.mpos.getD 0)))
      else w.cmd.textStart
    textLen := if w.captures code then
        some (BitVec.ofNat 8 ((w.body c).length - textStartOf (w.body c) (w.mpos.getD 0)))
      else w.cmd.textLen } } := by
  unfold captureRest
  cases w.captures code <;> rfl

/-- Where a text starts and how long its first word is, part by part (R210). -/
theorem TextParts.spans {body : List Byte} {mpos : Nat} {num gap word rest : List Byte}
    (h : TextParts body mpos num gap word rest) :
    textStartOf body mpos = mpos + 1 + num.length + gap.length ∧
    textWordLen body (mpos + 1 + num.length + gap.length) = word.length ∧
    body.length = mpos + 1 + num.length + gap.length + word.length + rest.length := by
  have hl : body.length = mpos + 1 + num.length + gap.length + word.length + rest.length := by
    have := congrArg List.length h.split
    have := h.inside
    simp at *
    omega
  have hd : body.drop (mpos + 1 + num.length + gap.length) = word ++ rest := by
    rw [Nat.add_assoc, ← List.drop_drop, h.split]
    simp [List.append_assoc, List.drop_append]
  have takeAll {p : Byte → Bool} {a b : List Byte} (ha : ∀ x ∈ a, p x = true)
      (hb : ∀ x, b.head? = some x → p x = false) :
      (a ++ b).takeWhile p = a ∧ (a ++ b).dropWhile p = b := by
    rw [List.takeWhile_append_of_pos ha, List.dropWhile_append_of_pos ha]
    cases b with
    | nil => simp
    | cons x b => simp [hb x rfl]
  have hw : ∀ x, (word ++ rest).head? = some x → isSpace x = false := by
    intro x hx
    cases word with
    | nil => rw [h.no_word rfl] at hx; simp at hx
    | cons y word => exact h.word_start x (by simpa using hx)
  have hg : ∀ x, (gap ++ (word ++ rest)).head? = some x → (!isSpace x) = false := by
    intro x hx
    cases gap with
    | nil => rw [h.no_word (h.no_gap rfl), h.no_gap rfl] at hx; simp at hx
    | cons y gap =>
      have : y = x := by simpa using hx
      subst this
      simp [h.gap_space y (by simp)]
  refine ⟨?_, ?_, hl⟩
  · unfold textStartOf
    rw [h.split, List.append_assoc, List.append_assoc,
      (takeAll (p := fun b => !isSpace b) (fun x hx => by simp [h.num_solid x hx]) hg).2,
      (takeAll h.gap_space hw).2]
    simp
    omega
  · unfold textWordLen
    rw [hd, (takeAll (p := (· != chSpace)) (fun x hx => by simpa [chSpace] using h.word_solid x hx)
      (fun x hx => by simpa [chSpace] using h.rest_start x hx)).1]

/-- All that the thirteen letters other than M do, one after another (R192, R195). -/
theorem letterRows_eq (c : List Byte) (w : Work) :
    let body := w.body c
    let lim := w.limit
    rowTokR c (rowTokJ c (rowTokI c (rowTokP c (rowTokS c (rowTokT c (rowTokF c (rowTokE c (rowTokZ c (rowTokY c
      (rowTokX c (rowTokG c (rowTokN c w)))))))))))) = { w with
      fmt := w.fmt || letterRead parseInt 0x4E body lim == some none || letterRead parseInt 0x47 body lim == some none
        || letterRead parseFloat 0x58 body lim == some none || letterRead parseFloat 0x59 body lim == some none
        || letterRead parseFloat 0x5A body lim == some none || letterRead parseFloat 0x45 body lim == some none
        || letterRead parseFloat 0x46 body lim == some none || letterRead parseInt 0x54 body lim == some none
        || letterRead parseInt 0x53 body lim == some none || letterRead parseInt 0x50 body lim == some none
        || letterRead parseFloat 0x49 body lim == some none || letterRead parseFloat 0x4A body lim == some none
        || letterRead parseFloat 0x52 body lim == some none
      cmd := { w.cmd with
        lineNumber := ((letterRead parseInt 0x4E body lim).join.map (BitVec.ofInt 32)).or w.cmd.lineNumber,
        gCode := ((letterRead parseInt 0x47 body lim).join.map (BitVec.ofInt 16)).or w.cmd.gCode,
        x := (letterRead parseFloat 0x58 body lim).join.or w.cmd.x,
        y := (letterRead parseFloat 0x59 body lim).join.or w.cmd.y,
        z := (letterRead parseFloat 0x5A body lim).join.or w.cmd.z,
        e := (letterRead parseFloat 0x45 body lim).join.or w.cmd.e,
        f := (letterRead parseFloat 0x46 body lim).join.or w.cmd.f,
        toolIndex := ((letterRead parseInt 0x54 body lim).join.map (BitVec.ofInt 8)).or w.cmd.toolIndex,
        sValue := ((letterRead parseInt 0x53 body lim).join.map (BitVec.ofInt 32)).or w.cmd.sValue,
        pValue := ((letterRead parseInt 0x50 body lim).join.map (BitVec.ofInt 32)).or w.cmd.pValue,
        i := (letterRead parseFloat 0x49 body lim).join.or w.cmd.i,
        j := (letterRead parseFloat 0x4A body lim).join.or w.cmd.j,
        r := (letterRead parseFloat 0x52 body lim).join.or w.cmd.r } } := by
  simp only [rowTokN_eq, rowTokG_eq, rowTokX_eq, rowTokY_eq, rowTokZ_eq, rowTokE_eq, rowTokF_eq, rowTokT_eq, rowTokS_eq,
    rowTokP_eq, rowTokI_eq, rowTokJ_eq, rowTokR_eq, Work.body, Work.limit]

/-- The length of the text that starts at `start` of a line with that M code (R210, R211). -/
def textLength (body : List Byte) (code : Option Half) (start : Nat) : Nat :=
  if code = some 117 ∨ code = some 3117 then body.length - start else textWordLen body start

/-- All that the seven text rows do, one after another: nothing without text mode, else the capture of the row whose
code the line has (R210, R211). -/
theorem textRows_eq (c : List Byte) (w : Work) (hm : w.textMode = w.cmd.mCode.any (Config.textM.contains ·)) :
    let start := textStartOf (w.body c) (w.mpos.getD 0)
    rowM3117 c (rowM117 c (rowM32 c (rowM30 c (rowM29 c (rowM28 c (rowM23 c w)))))) =
      if w.textMode then
        { w with cmd := w.cmd.withText start (textLength (w.body c) w.cmd.mCode start) }
      else w := by
  simp only [rowM23, rowM28, rowM29, rowM30, rowM32, rowM117, rowM3117]
  cases ht : w.textMode with
  | false => simp [captureWord, captureRest, Work.captures, ht]
  | true =>
    rw [ht] at hm
    obtain ⟨code, hc, hin⟩ := (Option.any_eq_true _ _).1 hm.symm
    simp only [captureWord_eq, captureRest_eq, Work.captures, Work.body, ht, hc, Bool.true_and, if_true]
    have : code ∈ Config.textM := by simpa using hin
    simp only [Config.textM, Config.textMWord, Config.textMSpaces, List.cons_append, List.nil_append, List.mem_cons,
      List.not_mem_nil, or_false] at this
    rcases this with rfl | rfl | rfl | rfl | rfl | rfl | rfl <;> simp [Record.withText, textLength, hc]

/-- The letters whose number fails, in the order of the search and by kind. -/
theorem failure_order (m n g x y z e f t s p i j r : Prop) :
    (((((((((((((m ∨ n) ∨ g) ∨ x) ∨ y) ∨ z) ∨ e) ∨ f) ∨ t) ∨ s) ∨ p) ∨ i) ∨ j) ∨ r) ↔
      (m ∨ (n ∨ g ∨ t ∨ s ∨ p) ∨ x ∨ y ∨ z ∨ e ∨ f ∨ i ∨ j ∨ r) := by
  grind

/-- A line's decode, field by field, in terms of what each letter gives (R190). -/
theorem asciiDecode_eq (c : List Byte) :
    let w := asciiDecode c
    let b := (findByte chStar c).getD c.length
    let body := c.take b
    let m := letterRead parseInt 0x4D body b
    let lim := if w.textMode then w.mpos.getD 0 else b
    w.star = findByte chStar c ∧ w.bodyEnd = b ∧ w.mpos = findByte 0x4D body ∧
    w.cmd.mCode = m.join.map (BitVec.ofInt 16) ∧
    w.textMode = (w.cmd.mCode.any (Config.textM.contains ·)) ∧
    w.cmd.lineNumber = (letterRead parseInt 0x4E body lim).join.map (BitVec.ofInt 32) ∧
    w.cmd.gCode = (letterRead parseInt 0x47 body lim).join.map (BitVec.ofInt 16) ∧
    w.cmd.x = (letterRead parseFloat 0x58 body lim).join ∧
    w.cmd.y = (letterRead parseFloat 0x59 body lim).join ∧
    w.cmd.z = (letterRead parseFloat 0x5A body lim).join ∧
    w.cmd.e = (letterRead parseFloat 0x45 body lim).join ∧
    w.cmd.f = (letterRead parseFloat 0x46 body lim).join ∧
    w.cmd.toolIndex = (letterRead parseInt 0x54 body lim).join.map (BitVec.ofInt 8) ∧
    w.cmd.sValue = (letterRead parseInt 0x53 body lim).join.map (BitVec.ofInt 32) ∧
    w.cmd.pValue = (letterRead parseInt 0x50 body lim).join.map (BitVec.ofInt 32) ∧
    w.cmd.i = (letterRead parseFloat 0x49 body lim).join ∧
    w.cmd.j = (letterRead parseFloat 0x4A body lim).join ∧
    w.cmd.r = (letterRead parseFloat 0x52 body lim).join ∧
    (w.cmd.rawFormatError = true ↔ m = some none ∨
      (∃ ch ∈ [0x4E, 0x47, 0x54, 0x53, 0x50], letterRead parseInt ch body lim = some none) ∨
      (∃ ch ∈ [0x58, 0x59, 0x5A, 0x45, 0x46, 0x49, 0x4A, 0x52], letterRead parseFloat ch body lim = some none)) ∧
    (w.textMode = false → w.cmd.textStart = none ∧ w.cmd.textLen = none) ∧
    (w.textMode = true →
      w.cmd.textStart = some (BitVec.ofNat 8 (textStartOf body (w.mpos.getD 0))) ∧
      w.cmd.textLen = some (BitVec.ofNat 8 (textLength body w.cmd.mCode (textStartOf body (w.mpos.getD 0))))) := by
  have hd : asciiDecode c = sealRecord (rowM3117 c (rowM117 c (rowM32 c (rowM30 c (rowM29 c (rowM28 c (rowM23 c
      (rowTokR c (rowTokJ c (rowTokI c (rowTokP c (rowTokS c (rowTokT c (rowTokF c (rowTokE c (rowTokZ c (rowTokY c
      (rowTokX c (rowTokG c (rowTokN c (rowTokM c (rowChecksumStar c { len := c.length })))))))))))))))))))))) := by
    simp only [asciiDecode, asciiRows, List.foldl]
  rw [hd, asciiHead_eq, letterRows_eq, textRows_eq _ _ rfl]
  dsimp only [Work.body, Work.limit]
  generalize Option.map (BitVec.ofInt 16) (letterRead parseInt 0x4D _ _).join = mc
  cases ht : mc.any (Config.textM.contains ·) <;>
    simp only [sealRecord, Record.withText, Option.or_none, if_true, Bool.false_eq_true, if_false]
  all_goals
    refine ⟨trivial, trivial, trivial, trivial, ht.symm, trivial, trivial, trivial, trivial, trivial, trivial, trivial,
      trivial, trivial, trivial, trivial, trivial, trivial, ?_, ?_⟩
  case false.refine_2 | true.refine_2 => simp
  all_goals
    simp only [Bool.or_eq_true, beq_iff_eq, List.mem_cons, List.not_mem_nil, or_false, exists_eq_or_imp, exists_eq_left]
    exact failure_order ..

end Sys2Proof.Machine
end

