-- ==== Sys2Proof/Laws/PerInstr.lean ====
section
/-! SUPPORT. The word of every instruction fits the width of its format, instruction by instruction. -/

namespace Sys2Proof.Laws.EncodeFits

/-- The port word of the instruction has no bit above its format's width, so that the decoder looks at it (R81, R103). -/
def Statement (i : Instr) : Prop := (encode i).word.toNat < 2 ^ (encode i).space.width

theorem idle : Statement .idle := by unfold Statement; decide
theorem byte (b : Byte) (src : Bool) : Statement (.byte b src) := by
  unfold Statement
  revert b src
  decide +kernel
theorem peek : Statement .peek := by unfold Statement; decide
theorem pop : Statement .pop := by unfold Statement; decide
theorem reset : Statement .reset := by unfold Statement; decide
theorem cfgWrite (v : Bool) : Statement (.cfgWrite v) := by
  unfold Statement
  revert v
  decide
theorem status : Statement .status := by unfold Statement; decide
theorem rsvd7 : Statement .rsvd7 := by unfold Statement; decide
theorem firstBinary (b : Byte) (src : Bool) : Statement (.firstBinary b src) := by
  unfold Statement
  revert b src
  decide +kernel
theorem firstAscii (b : Byte) (src : Bool) : Statement (.firstAscii b src) := by
  unfold Statement
  revert b src
  decide +kernel
theorem bf1V1 : Statement .bf1V1 := by unfold Statement; decide
theorem bf1V2 : Statement .bf1V2 := by unfold Statement; decide
theorem bf1Mark : Statement .bf1Mark := by unfold Statement; decide
theorem bf1N : Statement .bf1N := by unfold Statement; decide
theorem bf1M : Statement .bf1M := by unfold Statement; decide
theorem bf1G : Statement .bf1G := by unfold Statement; decide
theorem bf1X : Statement .bf1X := by unfold Statement; decide
theorem bf1Y : Statement .bf1Y := by unfold Statement; decide
theorem bf1Z : Statement .bf1Z := by unfold Statement; decide
theorem bf1E : Statement .bf1E := by unfold Statement; decide
theorem bf1F : Statement .bf1F := by unfold Statement; decide
theorem bf1T : Statement .bf1T := by unfold Statement; decide
theorem bf1S : Statement .bf1S := by unfold Statement; decide
theorem bf1P : Statement .bf1P := by unfold Statement; decide
theorem bf1Ext : Statement .bf1Ext := by unfold Statement; decide
theorem bf1Internal : Statement .bf1Internal := by unfold Statement; decide
theorem bf1TextV1 : Statement .bf1TextV1 := by unfold Statement; decide
theorem bf1TextV2 : Statement .bf1TextV2 := by unfold Statement; decide
theorem bf2I : Statement .bf2I := by unfold Statement; decide
theorem bf2J : Statement .bf2J := by unfold Statement; decide
theorem bf2R : Statement .bf2R := by unfold Statement; decide
theorem bf2Rsv : Statement .bf2Rsv := by unfold Statement; decide
theorem tokM : Statement .tokM := by unfold Statement; decide
theorem tokN : Statement .tokN := by unfold Statement; decide
theorem tokG : Statement .tokG := by unfold Statement; decide
theorem tokX : Statement .tokX := by unfold Statement; decide
theorem tokY : Statement .tokY := by unfold Statement; decide
theorem tokZ : Statement .tokZ := by unfold Statement; decide
theorem tokE : Statement .tokE := by unfold Statement; decide
theorem tokF : Statement .tokF := by unfold Statement; decide
theorem tokT : Statement .tokT := by unfold Statement; decide
theorem tokS : Statement .tokS := by unfold Statement; decide
theorem tokP : Statement .tokP := by unfold Statement; decide
theorem tokI : Statement .tokI := by unfold Statement; decide
theorem tokJ : Statement .tokJ := by unfold Statement; decide
theorem tokR : Statement .tokR := by unfold Statement; decide
theorem termNul : Statement .termNul := by unfold Statement; decide
theorem termLf : Statement .termLf := by unfold Statement; decide
theorem termCr : Statement .termCr := by unfold Statement; decide
theorem termColon : Statement .termColon := by unfold Statement; decide
theorem comment : Statement .comment := by unfold Statement; decide
theorem checksumStar : Statement .checksumStar := by unfold Statement; decide
theorem m23 : Statement .m23 := by unfold Statement; decide
theorem m28 : Statement .m28 := by unfold Statement; decide
theorem m29 : Statement .m29 := by unfold Statement; decide
theorem m30 : Statement .m30 := by unfold Statement; decide
theorem m32 : Statement .m32 := by unfold Statement; decide
theorem m117 : Statement .m117 := by unfold Statement; decide
theorem m3117 : Statement .m3117 := by unfold Statement; decide
theorem m110 : Statement .m110 := by unfold Statement; decide

end Sys2Proof.Laws.EncodeFits
end

