-- ==== Sys2Proof/Tests/Slice0.lean ====
section
/-! SUPPORT. The model's own tests. Expected results are taken from spec/ (the vectors of 95_test_vectors.md and the
worked examples of the rules), never from the model. The witness theorems show that each statement's hypotheses can be
met, clause by clause. -/

namespace Sys2Proof.Tests

set_option Elab.async false

open Sys2Proof Sys2Proof.Machine

/-! ## Helpers -/

/-- Memory holding these bytes from address `a` on. -/
def memFrom : List Byte → Nat → List Host.Cell → List Host.Cell
  | [], _, m => m
  | b :: t, a, m => memFrom t (a + 1) (Memory.write m a b)

/-- acc holding these bytes from address 0 on. -/
def accOf (l : List Byte) : List Host.Cell := memFrom l 0 []

/-- A field of the state after one instruction. -/
def field {α : Type} (i : Instr) (s : State) (f : State → α) : Option α :=
  match exec i s with
  | .next t => some (f t)
  | _ => none

/-- An ASCII line in progress with these bytes stored. -/
def lineState (l : List Byte) : State := { acc := accOf l, cursor := BitVec.ofNat 8 l.length }

/-- A binary frame of length `n` in progress with these bytes stored. -/
def frameState (l : List Byte) (n : Nat) : State :=
  { acc := accOf l, cursor := BitVec.ofNat 8 l.length, binMode := true, frameLen := BitVec.ofNat 8 n }

/-- A binary decode in progress on this frame, its header read. -/
def fieldState (l : List Byte) (bf1 bf2 : Half) (off : Nat) : State :=
  { acc := accOf l, work := { bf1 := bf1, bf2 := bf2, off := off, cmd := { pm1 := bf1, pm2 := bf2 } } }

/-- An ASCII decode in progress on a line without '*'. -/
def tokenState (l : List Byte) : State := { acc := accOf l, work := { len := l.length, bodyEnd := l.length } }

/-- An ASCII decode in progress in text mode: M at index `mpos` with the value `code`. -/
def textState (l : List Byte) (mpos : Nat) (code : Half) : State :=
  { acc := accOf l
    work := { len := l.length, bodyEnd := l.length, mpos := some mpos, textMode := true, cmd := { mCode := some code } } }

/-- A state with one queued record, peeked. -/
def peeked (r : Record) : State := { slots := [r, {}], count := 1, peekValid := true }

/-- G28 as an ASCII record (V-AD-1). -/
def recG28 : Record := { pm1 := 0x0004, gCode := some 28 }

/-- M110 as an ASCII record (V-AD-40). -/
def recM110 : Record := { pm1 := 0x0002, mCode := some 110 }

/-- G1 with line number `n` as an ASCII record. -/
def recLine (n : Word) : Record := { pm1 := 0x0005, lineNumber := some n, gCode := some 1 }

/-- A line-number reset to line `n`, as an ASCII record (V-AD-42). -/
def recReset (n : Word) : Record := { pm1 := 0x0003, lineNumber := some n, mCode := some 110 }

/-- "M117 Hi" as an ASCII record: its text is acc[5..6]. -/
def recText : Record := { pm1 := 0x8002, mCode := some 117, textStart := some 5, textLen := some 2 }

/-! ## WellFormed -/

theorem test_wf_first_binary_needs_bit7 :
    (Instr.firstBinary 0x7F false).wf = false ∧ (Instr.firstBinary 0x80 false).wf = true := by decide
theorem test_wf_first_ascii_needs_bit7_clear :
    (Instr.firstAscii 0x80 false).wf = false ∧ (Instr.firstAscii 0x7F false).wf = true := by decide

/-! ## Decoding: every constructor from a word written out from spec/30_encoding.md -/

/-- tw[2:0] is the op, tw[3] the source, tw[11:4] the data (R81; words of P1, P4, V-CT-1 to V-CT-4). -/
theorem test_decode_transaction :
    decode ⟨.transaction, 0x000⟩ = .ok .idle ∧
    decode ⟨.transaction, 0x0F0⟩ = .ok .idle ∧
    decode ⟨.transaction, 0x4E1⟩ = .ok (.byte 0x4E false) ∧
    decode ⟨.transaction, 0x829⟩ = .ok (.byte 0x82 true) ∧
    decode ⟨.transaction, 0x002⟩ = .ok .peek ∧
    decode ⟨.transaction, 0x003⟩ = .ok .pop ∧
    decode ⟨.transaction, 0x004⟩ = .ok .reset ∧
    decode ⟨.transaction, 0x015⟩ = .ok (.cfgWrite true) ∧
    decode ⟨.transaction, 0x1F5⟩ = .ok (.cfgWrite true) ∧
    decode ⟨.transaction, 0xFE5⟩ = .ok (.cfgWrite false) ∧
    decode ⟨.transaction, 0x006⟩ = .ok .status ∧
    decode ⟨.transaction, 0x007⟩ = .ok .rsvd7 := by decide +kernel
/-- Bit 7 of the byte decides (R85); bit 8 is the source. -/
theorem test_decode_first_byte :
    decode ⟨.firstByte, 0x080⟩ = .ok (.firstBinary 0x80 false) ∧
    decode ⟨.firstByte, 0x1FF⟩ = .ok (.firstBinary 0xFF true) ∧
    decode ⟨.firstByte, 0x000⟩ = .ok (.firstAscii 0x00 false) ∧
    decode ⟨.firstByte, 0x17F⟩ = .ok (.firstAscii 0x7F true) := by decide +kernel
/-- Mask 0x1080: bit 7 marks a frame, bit 12 makes it V2 (R103). -/
theorem test_decode_wire_form :
    decode ⟨.wireForm, 0x0080⟩ = .ok .bf1V1 ∧
    decode ⟨.wireForm, 0x1080⟩ = .ok .bf1V2 ∧
    decode ⟨.wireForm, 0xEFFF⟩ = .ok .bf1V1 ∧
    decode ⟨.wireForm, 0xFFFF⟩ = .ok .bf1V2 := by decide +kernel
/-- One bit each (R86), and the matches the table gives BF1_V1 and BF1_V2. -/
theorem test_decode_bitfield1 :
    decode ⟨.bitfield1, 0x0000⟩ = .ok .bf1V1 ∧
    decode ⟨.bitfield1, 0x1000⟩ = .ok .bf1V2 ∧
    decode ⟨.bitfield1, 0x0080⟩ = .ok .bf1Mark ∧
    decode ⟨.bitfield1, 0x0001⟩ = .ok .bf1N ∧
    decode ⟨.bitfield1, 0x0002⟩ = .ok .bf1M ∧
    decode ⟨.bitfield1, 0x0004⟩ = .ok .bf1G ∧
    decode ⟨.bitfield1, 0x0008⟩ = .ok .bf1X ∧
    decode ⟨.bitfield1, 0x0010⟩ = .ok .bf1Y ∧
    decode ⟨.bitfield1, 0x0020⟩ = .ok .bf1Z ∧
    decode ⟨.bitfield1, 0x0040⟩ = .ok .bf1E ∧
    decode ⟨.bitfield1, 0x0100⟩ = .ok .bf1F ∧
    decode ⟨.bitfield1, 0x0200⟩ = .ok .bf1T ∧
    decode ⟨.bitfield1, 0x0400⟩ = .ok .bf1S ∧
    decode ⟨.bitfield1, 0x0800⟩ = .ok .bf1P ∧
    decode ⟨.bitfield1, 0x2000⟩ = .ok .bf1Ext ∧
    decode ⟨.bitfield1, 0x4000⟩ = .ok .bf1Internal ∧
    decode ⟨.bitfield1, 0x8000⟩ = .ok .bf1TextV1 ∧
    decode ⟨.bitfield1, 0x9000⟩ = .ok .bf1TextV2 := by decide +kernel
/-- One bit each, and the bits that name no field (R87). -/
theorem test_decode_bitfield2 :
    decode ⟨.bitfield2, 0x0001⟩ = .ok .bf2I ∧
    decode ⟨.bitfield2, 0x0002⟩ = .ok .bf2J ∧
    decode ⟨.bitfield2, 0x0004⟩ = .ok .bf2R ∧
    decode ⟨.bitfield2, 0x0008⟩ = .ok .bf2Rsv ∧
    decode ⟨.bitfield2, 0x8000⟩ = .ok .bf2Rsv := by decide +kernel
/-- The letters of R95 by their codes (R16). -/
theorem test_decode_ascii_token :
    decode ⟨.asciiToken, 0x4D⟩ = .ok .tokM ∧
    decode ⟨.asciiToken, 0x4E⟩ = .ok .tokN ∧
    decode ⟨.asciiToken, 0x47⟩ = .ok .tokG ∧
    decode ⟨.asciiToken, 0x58⟩ = .ok .tokX ∧
    decode ⟨.asciiToken, 0x59⟩ = .ok .tokY ∧
    decode ⟨.asciiToken, 0x5A⟩ = .ok .tokZ ∧
    decode ⟨.asciiToken, 0x45⟩ = .ok .tokE ∧
    decode ⟨.asciiToken, 0x46⟩ = .ok .tokF ∧
    decode ⟨.asciiToken, 0x54⟩ = .ok .tokT ∧
    decode ⟨.asciiToken, 0x53⟩ = .ok .tokS ∧
    decode ⟨.asciiToken, 0x50⟩ = .ok .tokP ∧
    decode ⟨.asciiToken, 0x49⟩ = .ok .tokI ∧
    decode ⟨.asciiToken, 0x4A⟩ = .ok .tokJ ∧
    decode ⟨.asciiToken, 0x52⟩ = .ok .tokR := by decide +kernel
/-- The structural bytes of R93, R94 and R96. -/
theorem test_decode_ascii_struct :
    decode ⟨.asciiStruct, 0x00⟩ = .ok .termNul ∧
    decode ⟨.asciiStruct, 0x0A⟩ = .ok .termLf ∧
    decode ⟨.asciiStruct, 0x0D⟩ = .ok .termCr ∧
    decode ⟨.asciiStruct, 0x3A⟩ = .ok .termColon ∧
    decode ⟨.asciiStruct, 0x3B⟩ = .ok .comment ∧
    decode ⟨.asciiStruct, 0x2A⟩ = .ok .checksumStar := by decide +kernel
/-- The M values of R97 and R232. -/
theorem test_decode_mcode :
    decode ⟨.mcode, 23⟩ = .ok .m23 ∧
    decode ⟨.mcode, 28⟩ = .ok .m28 ∧
    decode ⟨.mcode, 29⟩ = .ok .m29 ∧
    decode ⟨.mcode, 30⟩ = .ok .m30 ∧
    decode ⟨.mcode, 32⟩ = .ok .m32 ∧
    decode ⟨.mcode, 117⟩ = .ok .m117 ∧
    decode ⟨.mcode, 3117⟩ = .ok .m3117 ∧
    decode ⟨.mcode, 110⟩ = .ok .m110 := by decide +kernel
theorem test_decode_refuses_unknown_words :
    decode ⟨.wireForm, 0x1000⟩ = .error (.noRow .wireForm) ∧
    decode ⟨.asciiToken, 0x67⟩ = .error (.noRow .asciiToken) ∧ decode ⟨.mcode, 24⟩ = .error (.noRow .mcode) ∧
    decode ⟨.transaction, 0x1000⟩ = .error (.tooWide .transaction) := by decide +kernel
theorem test_table_words :
    decodeTableWord 16 0x0001 = some (.byte 0 false) ∧
    decodeTableWord 8 0x4D = some .tokM ∧ decodeTableWord 16 0x2000 = some .bf1Ext ∧
    decodeTableWord 16 110 = some .m110 := by decide +kernel

/-! ## One step of each instruction -/

/-- R310: IDLE leaves a partial line. -/
theorem test_idle :
    field .idle (lineState [0x47, 0x31]) (fun t => (t.cursor, t.response)) = some (2, .ok) := by decide +kernel
/-- V-CT-3. -/
theorem test_rsvd7 :
    field .rsvd7 State.reset (fun t => (t.response, t.events)) = some (.ok, []) := by decide +kernel
/-- V-CT-1: STAT0[12] = 1. -/
theorem test_cfg_write :
    field (.cfgWrite true) State.reset (fun t => t.stat0) = some 0x1000 := by decide +kernel
/-- V-CT-5, R311: all four STATUS words read 0. -/
theorem test_reset :
    field .reset { lineState [0x47, 0x31] with lastAcceptedLine := 7, awaiting := true, skipCount := 30, popFault := true, count := 1 }
      (fun t => (t.stat0, t.stat1, t.stat2, t.stat3)) = some (0, 0, 0, 0) := by decide +kernel
/-- R311: acc is not changed. -/
theorem test_reset_keeps_acc :
    field .reset (lineState [0x47, 0x31]) (fun t => Memory.read t.acc 0) = some 0x47 := by decide +kernel
/-- R313: STAT0 = 0x00000201 with one text-bearing record queued. -/
theorem test_status_text_queued :
    field .status { State.reset with count := 1, payloadBusy := true } (fun t => t.response)
      = some (.status 0x00000201 0 0 0) := by decide +kernel
/-- P3 step 7. -/
theorem test_status_p3 :
    field .status { State.reset with
        head := 1, awaiting := true, pendingResendLine := 1, skipCount := 30
        consecutiveFormatErrors := 1, popFault := true }
      (fun t => t.response) = some (.status 0x00000900 0 1 0x0001011E) := by decide +kernel
/-- V-QU-3. -/
theorem test_peek_empty :
    field .peek State.reset (fun t => (t.response, t.peekValid)) = some (.empty, false) := by decide +kernel
/-- P3 step 3: the text is "Hi". -/
theorem test_peek_text :
    field .peek { State.reset with acc := accOf [0x4D, 0x31, 0x31, 0x37, 0x20, 0x48, 0x69], slots := [recText, {}], count := 1, payloadBusy := true }
      (fun t => (t.response, t.peekValid)) = some (.record recText (some [0x48, 0x69]), true) := by decide +kernel
/-- R293: count 0, head 1, OK. -/
theorem test_pop :
    field .pop (peeked recG28) (fun t => (t.count, t.head, t.peekValid, t.response)) = some (0, 1, false, .ok) := by decide +kernel
/-- V-QU-1: FAULT, STAT0 = 0x00000800. -/
theorem test_pop_from_reset :
    field .pop State.reset (fun t => (t.response, t.stat0)) = some (.fault, 0x800) := by decide +kernel
/-- R260: LF after "G28" is accepted, Acknowledged(none), count 1. -/
theorem test_byte_completes_line :
    field (.byte 0x0A false) (lineState [0x47, 0x32, 0x38]) (fun t => (t.response, t.events, t.queue))
      = some (.accepted, [.acknowledged none], [recG28]) := by decide +kernel
/-- V-CK-1: the last byte of a valid frame. -/
theorem test_byte_completes_frame :
    field (.byte 0xEB false) { frameState [0x89, 0x00, 0x05, 0x00, 0x00, 0x00, 0x20, 0x41, 0xEF] 10 with lastAcceptedLine := 4 } (fun t => (t.events, t.queue))
      = some ([.acknowledged (some 5)],
        [{ pm1 := 0x0089, lineNumber := some 5, x := some 0x41200000 }]) := by decide +kernel
/-- R263. -/
theorem test_first_binary :
    field (.firstBinary 0x80 true) State.reset (fun t => (t.binMode, t.frameSrc)) = some (true, true) := by decide +kernel
/-- R263. -/
theorem test_first_ascii :
    field (.firstAscii 0x47 false) { State.reset with binMode := true, frameSrc := true } (fun t => (t.binMode, t.frameSrc))
      = some (false, false) := by decide +kernel
/-- R161: 89 00 gives bf1 = 0x0089 and v2 = 0. -/
theorem test_bf1_v1 :
    field .bf1V1 { State.reset with acc := accOf [0x89, 0x00] } (fun t => (t.work.bf1, t.work.off)) = some (0x0089, 2) := by decide +kernel
/-- R162: 80 10 05 00 has bf2 = 0x0005. -/
theorem test_bf1_v2 :
    field .bf1V2 { State.reset with acc := accOf [0x80, 0x10, 0x05, 0x00] }
      (fun t => (t.work.bf1, t.work.bf2, t.work.off)) = some (0x1080, 0x0005, 4) := by decide +kernel
/-- R163: tl = 0x05. -/
theorem test_bf1_v2_text :
    field .bf1V2 { State.reset with acc := accOf [0x82, 0x90, 0x00, 0x00, 0x05] }
      (fun t => (t.work.tl, t.work.off)) = some (some 5, 5) := by decide +kernel
/-- R181, V-BD-22: the bit is copied. -/
theorem test_bf1_mark :
    field .bf1Mark { State.reset with work := { bf1 := 0xFFFF } } (fun t => t.work.cmd.pm1) = some 0x0080 := by decide +kernel
/-- R181, V-BD-22: the bit is copied. -/
theorem test_bf1_ext :
    field .bf1Ext { State.reset with work := { bf1 := 0xFFFF } } (fun t => t.work.cmd.pm1) = some 0x2000 := by decide +kernel
/-- R181, V-BD-22: the bit is copied. -/
theorem test_bf1_internal :
    field .bf1Internal { State.reset with work := { bf1 := 0xFFFF } } (fun t => t.work.cmd.pm1) = some 0x4000 := by decide +kernel
/-- V-BD-23. -/
theorem test_bf2_rsv :
    field .bf2Rsv { State.reset with work := { bf2 := 0xFFFF } } (fun t => t.work.cmd.pm2) = some 0xFFF8 := by decide +kernel
/-- V-BD-2: zero extension. -/
theorem test_bf1_n :
    field .bf1N (fieldState [0x81, 0x00, 0xFF, 0xFF] 0x0081 0 2)
      (fun t => (t.work.cmd.lineNumber, t.work.off)) = some (some 65535, 4) := by decide +kernel
/-- V-BD-3. -/
theorem test_bf1_m_v1 :
    field .bf1M (fieldState [0x82, 0x00, 0x6E] 0x0082 0 2)
      (fun t => (t.work.cmd.mCode, t.work.off)) = some (some 110, 3) := by decide +kernel
/-- V-BD-4. -/
theorem test_bf1_m_v2 :
    field .bf1M (fieldState [0x82, 0x10, 0x00, 0x00, 0x2D, 0x0C] 0x1082 0 4)
      (fun t => (t.work.cmd.mCode, t.work.off)) = some (some 3117, 6) := by decide +kernel
/-- V-BD-6. -/
theorem test_bf1_g_v1 :
    field .bf1G (fieldState [0x84, 0x00, 0x01] 0x0084 0 2)
      (fun t => (t.work.cmd.gCode, t.work.off)) = some (some 1, 3) := by decide +kernel
/-- V-BD-7. -/
theorem test_bf1_g_v2 :
    field .bf1G (fieldState [0x84, 0x10, 0x00, 0x00, 0x2C, 0x01] 0x1084 0 4)
      (fun t => (t.work.cmd.gCode, t.work.off)) = some (some 300, 6) := by decide +kernel
/-- V-BD-8. -/
theorem test_bf1_x :
    field .bf1X (fieldState [0x88, 0x00, 0x00, 0x00, 0x20, 0x41] 0x0088 0 2)
      (fun t => (t.work.cmd.x, t.work.off)) = some (some 0x41200000, 6) := by decide +kernel
/-- V-BD-9. -/
theorem test_bf1_y :
    field .bf1Y (fieldState [0x90, 0x00, 0x00, 0x00, 0x20, 0xC0] 0x0090 0 2)
      (fun t => (t.work.cmd.y, t.work.off)) = some (some 0xC0200000, 6) := by decide +kernel
/-- V-BD-10. -/
theorem test_bf1_z :
    field .bf1Z (fieldState [0xA0, 0x00, 0x00, 0x00, 0x00, 0x00] 0x00A0 0 2)
      (fun t => (t.work.cmd.z, t.work.off)) = some (some 0, 6) := by decide +kernel
/-- V-BD-11. -/
theorem test_bf1_e :
    field .bf1E (fieldState [0xC0, 0x00, 0x00, 0x00, 0x80, 0x3F] 0x00C0 0 2)
      (fun t => (t.work.cmd.e, t.work.off)) = some (some 0x3F800000, 6) := by decide +kernel
/-- V-BD-12. -/
theorem test_bf1_f :
    field .bf1F (fieldState [0x80, 0x01, 0x00, 0x00, 0xB4, 0x44] 0x0180 0 2)
      (fun t => (t.work.cmd.f, t.work.off)) = some (some 0x44B40000, 6) := by decide +kernel
/-- V-BD-13. -/
theorem test_bf1_t :
    field .bf1T (fieldState [0x80, 0x02, 0x02] 0x0280 0 2)
      (fun t => (t.work.cmd.toolIndex, t.work.off)) = some (some 2, 3) := by decide +kernel
/-- V-BD-14: S = -1. -/
theorem test_bf1_s :
    field .bf1S (fieldState [0x80, 0x04, 0xFF, 0xFF, 0xFF, 0xFF] 0x0480 0 2)
      (fun t => (t.work.cmd.sValue, t.work.off)) = some (some 0xFFFFFFFF, 6) := by decide +kernel
/-- V-BD-15. -/
theorem test_bf1_p :
    field .bf1P (fieldState [0x80, 0x08, 0xE8, 0x03, 0x00, 0x00] 0x0880 0 2)
      (fun t => (t.work.cmd.pValue, t.work.off)) = some (some 1000, 6) := by decide +kernel
/-- V-BD-16. -/
theorem test_bf2_i :
    field .bf2I (fieldState [0x80, 0x10, 0x01, 0x00, 0x00, 0x00, 0x00, 0x3F] 0x1080 0x0001 4)
      (fun t => (t.work.cmd.i, t.work.off)) = some (some 0x3F000000, 8) := by decide +kernel
/-- V-BD-17. -/
theorem test_bf2_j :
    field .bf2J (fieldState [0x80, 0x10, 0x02, 0x00, 0x00, 0x00, 0x00, 0xBF] 0x1080 0x0002 4)
      (fun t => (t.work.cmd.j, t.work.off)) = some (some 0xBF000000, 8) := by decide +kernel
/-- V-BD-18. -/
theorem test_bf2_r :
    field .bf2R (fieldState [0x80, 0x10, 0x04, 0x00, 0x00, 0x00, 0xA0, 0x40] 0x1080 0x0004 4)
      (fun t => (t.work.cmd.r, t.work.off)) = some (some 0x40A00000, 8) := by decide +kernel
/-- V-BD-19: text@3+16. -/
theorem test_bf1_text_v1 :
    field .bf1TextV1 (fieldState [] 0x8082 0 3) (fun t => (t.work.cmd.textStart, t.work.cmd.textLen, t.work.off))
      = some (some 3, some 16, 19) := by decide +kernel
/-- V-BD-25: min(200, 79) = 79. -/
theorem test_bf1_text_v2_capped :
    field .bf1TextV2 { State.reset with work := { bf1 := 0x9082, off := 7, tl := some 200 } }
      (fun t => (t.work.cmd.textStart, t.work.cmd.textLen, t.work.off)) = some (some 7, some 79, 86) := by decide +kernel
/-- R196: "M117 Hi" gives mCode 117 and text mode. -/
theorem test_tok_m_text_mode :
    field .tokM (tokenState [0x4D, 0x31, 0x31, 0x37, 0x20, 0x48, 0x69]) (fun t => (t.work.cmd.mCode, t.work.textMode, t.work.mpos))
      = some (some 117, true, some 0) := by decide +kernel
/-- V-AD-6. -/
theorem test_tok_m_masked :
    field .tokM (tokenState [0x4D, 0x2D, 0x31]) (fun t => t.work.cmd.mCode) = some (some 65535) := by decide +kernel
/-- V-AD-2: the parse stops at the dot. -/
theorem test_tok_n :
    field .tokN (tokenState [0x4E, 0x35, 0x2E, 0x35, 0x20, 0x47, 0x31]) (fun t => t.work.cmd.lineNumber) = some (some 5) := by decide +kernel
/-- R197. -/
theorem test_tok_n_negative :
    field .tokN (tokenState [0x4E, 0x2D, 0x31]) (fun t => t.work.cmd.lineNumber) = some (some 0xFFFFFFFF) := by decide +kernel
/-- V-AD-1. -/
theorem test_tok_g :
    field .tokG (tokenState [0x47, 0x32, 0x38]) (fun t => t.work.cmd.gCode) = some (some 28) := by decide +kernel
/-- V-AD-45. -/
theorem test_tok_g_alone :
    field .tokG (tokenState [0x47]) (fun t => (t.work.cmd.gCode, t.work.fmt)) = some (none, true) := by decide +kernel
/-- V-AD-4: the first occurrence only. -/
theorem test_tok_x_first :
    field .tokX (tokenState [0x47, 0x31, 0x20, 0x58, 0x31, 0x30, 0x20, 0x58, 0x32, 0x30]) (fun t => t.work.cmd.x) = some (some 0x41200000) := by decide +kernel
/-- V-AD-3. -/
theorem test_tok_x_space :
    field .tokX (tokenState [0x47, 0x31, 0x20, 0x58, 0x20, 0x31, 0x30]) (fun t => (t.work.cmd.x, t.work.fmt)) = some (none, true) := by decide +kernel
/-- V-RD-1. -/
theorem test_tok_y :
    field .tokY (tokenState [0x4E, 0x35, 0x20, 0x47, 0x31, 0x20, 0x58, 0x31, 0x30, 0x2E, 0x30, 0x20, 0x59, 0x2D, 0x32, 0x2E, 0x35]) (fun t => t.work.cmd.y) = some (some 0xC0200000) := by decide +kernel
/-- V-AD-16. -/
theorem test_tok_z :
    field .tokZ (tokenState [0x47, 0x31, 0x20, 0x5A, 0x30, 0x2E, 0x31]) (fun t => t.work.cmd.z) = some (some 0x3DCCCCCD) := by decide +kernel
/-- V-AD-12: no exponent notation. -/
theorem test_tok_e :
    field .tokE (tokenState [0x47, 0x31, 0x20, 0x58, 0x31, 0x45, 0x35]) (fun t => t.work.cmd.e) = some (some 0x40A00000) := by decide +kernel
/-- V-AD-26. -/
theorem test_tok_f :
    field .tokF (tokenState [0x47, 0x31, 0x20, 0x46, 0x31, 0x34, 0x34, 0x30]) (fun t => t.work.cmd.f) = some (some 0x44B40000) := by decide +kernel
/-- V-AD-8. -/
theorem test_tok_t_truncated :
    field .tokT (tokenState [0x54, 0x32, 0x35, 0x36]) (fun t => t.work.cmd.toolIndex) = some (some 0) := by decide +kernel
/-- V-AD-30. -/
theorem test_tok_t_word :
    field .tokT (tokenState [0x54, 0x45, 0x53, 0x54]) (fun t => (t.work.cmd.toolIndex, t.work.fmt)) = some (none, true) := by decide +kernel
/-- V-AD-9. -/
theorem test_tok_s_negative :
    field .tokS (tokenState [0x47, 0x31, 0x20, 0x53, 0x2D, 0x35]) (fun t => t.work.cmd.sValue) = some (some 0xFFFFFFFB) := by decide +kernel
/-- V-AD-10. -/
theorem test_tok_s_wraps :
    field .tokS (tokenState [0x47, 0x31, 0x20, 0x53, 0x32, 0x31, 0x34, 0x37, 0x34, 0x38, 0x33, 0x36, 0x34, 0x38]) (fun t => t.work.cmd.sValue) = some (some 0x80000000) := by decide +kernel
/-- V-AD-11. -/
theorem test_tok_p :
    field .tokP (tokenState [0x47, 0x31, 0x20, 0x50, 0x31, 0x30, 0x30, 0x30]) (fun t => t.work.cmd.pValue) = some (some 1000) := by decide +kernel
/-- V-AD-28. -/
theorem test_tok_i :
    field .tokI (tokenState [0x47, 0x31, 0x20, 0x49, 0x30, 0x2E, 0x35, 0x20, 0x4A, 0x2D, 0x30, 0x2E, 0x35, 0x20, 0x52, 0x35]) (fun t => t.work.cmd.i) = some (some 0x3F000000) := by decide +kernel
/-- V-AD-28. -/
theorem test_tok_j :
    field .tokJ (tokenState [0x47, 0x31, 0x20, 0x49, 0x30, 0x2E, 0x35, 0x20, 0x4A, 0x2D, 0x30, 0x2E, 0x35, 0x20, 0x52, 0x35]) (fun t => t.work.cmd.j) = some (some 0xBF000000) := by decide +kernel
/-- V-AD-28. -/
theorem test_tok_r :
    field .tokR (tokenState [0x47, 0x31, 0x20, 0x49, 0x30, 0x2E, 0x35, 0x20, 0x4A, 0x2D, 0x30, 0x2E, 0x35, 0x20, 0x52, 0x35]) (fun t => t.work.cmd.r) = some (some 0x40A00000) := by decide +kernel
/-- V-IN-3, R269: the terminator completes "G1". -/
theorem test_term_nul :
    field .termNul (lineState [0x47, 0x31]) (fun t => (t.events, t.count, t.cursor)) = some ([.acknowledged none], 1, 0) := by decide +kernel
/-- V-IN-3, R269: the terminator completes "G1". -/
theorem test_term_lf :
    field .termLf (lineState [0x47, 0x31]) (fun t => (t.events, t.count, t.cursor)) = some ([.acknowledged none], 1, 0) := by decide +kernel
/-- V-IN-3, R269: the terminator completes "G1". -/
theorem test_term_cr :
    field .termCr (lineState [0x47, 0x31]) (fun t => (t.events, t.count, t.cursor)) = some ([.acknowledged none], 1, 0) := by decide +kernel
/-- V-IN-3, R269: the terminator completes "G1". -/
theorem test_term_colon :
    field .termColon (lineState [0x47, 0x31]) (fun t => (t.events, t.count, t.cursor)) = some ([.acknowledged none], 1, 0) := by decide +kernel
/-- R268: a colon inside a comment is dropped. -/
theorem test_term_colon_in_comment :
    field .termColon { lineState [0x47, 0x31] with comment := true } (fun t => (t.comment, t.cursor)) = some (true, 2) := by decide +kernel
/-- V-IN-1: the bytes before the semicolon stay. -/
theorem test_comment :
    field .comment (lineState [0x4E, 0x31, 0x20, 0x47, 0x31, 0x20]) (fun t => (t.comment, t.cursor)) = some (true, 6) := by decide +kernel
/-- V-XO-3: a leading zero is allowed. -/
theorem test_checksum_star_pass :
    field .checksumStar (tokenState [0x4E, 0x35, 0x20, 0x47, 0x31, 0x20, 0x58, 0x31, 0x30, 0x2E, 0x30, 0x20, 0x59, 0x2D, 0x32, 0x2E, 0x35, 0x2A, 0x30, 0x35, 0x35]) (fun t => (t.work.star, t.work.bodyEnd, t.work.xorBad))
      = some (some 17, 17, false) := by decide +kernel
/-- V-XO-2. -/
theorem test_checksum_star_hex :
    field .checksumStar (tokenState [0x4E, 0x35, 0x20, 0x47, 0x31, 0x20, 0x58, 0x31, 0x30, 0x2E, 0x30, 0x20, 0x59, 0x2D, 0x32, 0x2E, 0x35, 0x2A, 0x33, 0x37]) (fun t => t.work.xorBad) = some true := by decide +kernel
/-- V-AD-35. -/
theorem test_m23 :
    field .m23 (textState [0x4D, 0x32, 0x33, 0x20, 0x70, 0x61, 0x72, 0x74, 0x2E, 0x67, 0x63, 0x6F, 0x20, 0x65, 0x78, 0x74, 0x72, 0x61] 0 23)
      (fun t => (t.work.cmd.textStart, t.work.cmd.textLen)) = some (some 4, some 8) := by decide +kernel
/-- V-AD-36. -/
theorem test_m23_empty :
    field .m23 (textState [0x4D, 0x32, 0x33] 0 23)
      (fun t => (t.work.cmd.textStart, t.work.cmd.textLen)) = some (some 3, some 0) := by decide +kernel
/-- R210. -/
theorem test_m28 :
    field .m28 (textState [0x4D, 0x32, 0x38, 0x20, 0x61, 0x2E, 0x67, 0x63, 0x6F] 0 28)
      (fun t => (t.work.cmd.textStart, t.work.cmd.textLen)) = some (some 4, some 5) := by decide +kernel
/-- R210, as V-AD-37. -/
theorem test_m29 :
    field .m29 (textState [0x4D, 0x32, 0x39, 0x20, 0x20, 0x20] 0 29)
      (fun t => (t.work.cmd.textStart, t.work.cmd.textLen)) = some (some 6, some 0) := by decide +kernel
/-- R210. -/
theorem test_m30 :
    field .m30 (textState [0x4D, 0x33, 0x30, 0x20, 0x6F, 0x6C, 0x64, 0x2E, 0x67, 0x20, 0x78] 0 30)
      (fun t => (t.work.cmd.textStart, t.work.cmd.textLen)) = some (some 4, some 5) := by decide +kernel
/-- D17: the text ends at the next SPACE, not at a TAB. -/
theorem test_m32 :
    field .m32 (textState [0x4D, 0x33, 0x32, 0x20, 0x61, 0x09, 0x62, 0x20, 0x63] 0 32)
      (fun t => (t.work.cmd.textStart, t.work.cmd.textLen)) = some (some 4, some 3) := by decide +kernel
/-- V-AD-32. -/
theorem test_m117 :
    field .m117 (textState [0x4D, 0x31, 0x31, 0x37, 0x20, 0x48, 0x65, 0x6C, 0x6C, 0x6F, 0x20, 0x77, 0x6F, 0x72, 0x6C, 0x64] 0 117)
      (fun t => (t.work.cmd.textStart, t.work.cmd.textLen)) = some (some 5, some 11) := by decide +kernel
/-- V-AD-38. -/
theorem test_m117_after_n :
    field .m117 (textState [0x4E, 0x37, 0x20, 0x4D, 0x31, 0x31, 0x37, 0x20, 0x4E, 0x39, 0x20, 0x58, 0x31] 3 117)
      (fun t => (t.work.cmd.textStart, t.work.cmd.textLen)) = some (some 8, some 5) := by decide +kernel
/-- V-AD-34. -/
theorem test_m3117 :
    field .m3117 (textState [0x4D, 0x33, 0x31, 0x31, 0x37, 0x20, 0x48, 0x69, 0x20, 0x74, 0x68, 0x65, 0x72, 0x65] 0 3117)
      (fun t => (t.work.cmd.textStart, t.work.cmd.textLen)) = some (some 6, some 8) := by decide +kernel
/-- V-SQ-7: M110 without N. -/
theorem test_m110 :
    field .m110 { State.reset with lastAcceptedLine := 9, awaiting := true, skipCount := 30, work := { cmd := recM110 } }
      (fun t => (t.lastAcceptedLine, t.awaiting, t.skipCount, t.events)) = some (0, false, 0, [.acknowledged none]) := by decide +kernel
/-- V-SQ-2: N10 M110. -/
theorem test_m110_numbered :
    field .m110 { State.reset with work := { cmd := recReset 10 } } (fun t => (t.lastAcceptedLine, t.events))
      = some (10, [.acknowledged (some 10)]) := by decide +kernel
/-- V-FS-1, V-FS-2, V-FS-3, V-FS-6, V-FS-16. -/
theorem test_frame_sizes :
    [fsSize [0x89, 0x00], fsSize [0x80, 0x00], fsSize [0xFF, 0x8F], fsSize [0xFF, 0x9F, 0x07, 0x00, 0xFF],
      fsSize [0x80, 0x12]] = [some 10, some 4, some 53, some 133, none] := by decide +kernel
/-- V-EN-3. -/
theorem test_encoder :
    encodeRecord { pm1 := 0x9082, mCode := some 117, textLen := some 2 } [0x4F, 0x4B] =
      [0x82, 0x90, 0x00, 0x00, 0x02, 0x75, 0x00, 0x4F, 0x4B, 0x25, 0xE4] := by decide +kernel

/-! ## Witnesses: the hypotheses of each statement can be met, clause by clause, at the ends of their ranges -/

theorem witness_DecodeEncodeAgree :
    (Instr.byte 0xFF true).wf = true ∧ (Instr.firstBinary 0x80 true).wf = true ∧ (Instr.firstAscii 0x7F false).wf = true := by decide +kernel
theorem witness_TransactionWordByItsBits :
    ∀ k < 8, (BitVec.ofNat 16 k).toNat < 4096 ∧ (BitVec.ofNat 16 k).toNat % 8 = k ∧
      (BitVec.ofNat 16 (4088 + k)).toNat < 4096 ∧ (BitVec.ofNat 16 (4088 + k)).toNat % 8 = k := by decide +kernel
theorem witness_StepRunsTheDecodedInstruction :
    decode ({ State.reset with port := [encode .status] } : State).fetch = .ok .status ∧
      Instr.status.wf = true ∧ ({ State.reset with port := [encode .status] } : State).port = encode .status :: [] ∧
      State.reset.port = [] := by decide +kernel
theorem witness_EveryStepTakesOneWord :
    ∃ t, exec .idle State.reset = .next t := ⟨_, rfl⟩
theorem witness_StatusWordsByField :
    ({ State.reset with count := 255, head := 255 } : State).count < 256 ∧
      ({ State.reset with count := 255, head := 255 } : State).head < 256 := by decide +kernel
theorem witness_PeekReportsTheOldest :
    State.reset.count = 0 ∧
    (let s : State := { State.reset with slots := [recG28, {}], count := 1 }
     s.count ≠ 0 ∧ s.slots[s.head]? = some recG28 ∧ recG28.pm1.getLsbD 15 = false) ∧
    (let r : Record := { recText with textStart := some 131, textLen := some 2 }
     let s : State := { State.reset with slots := [r, {}], count := 1 }
     s.count ≠ 0 ∧ s.slots[s.head]? = some r ∧ r.pm1.getLsbD 15 = true ∧
       (r.textStart.getD 0).toNat + (r.textLen.getD 0).toNat = s.params.accLen) := by decide +kernel
theorem witness_PeekReportsTheOldest_within : recG28.textWithin 133 ∧
    ({ recText with textStart := some 131, textLen := some 2 } : Record).textWithin 133 := by
  unfold Record.textWithin
  decide +kernel
theorem witness_PopRemovesThePeekedOrFaults :
    (peeked recG28).peekValid = true ∧ (peeked recG28).slots[(peeked recG28).head]? = some recG28 ∧
    (peeked recText).slots[(peeked recText).head]? = some recText ∧ recText.pm1.getLsbD 15 = true ∧
    State.reset.peekValid = false := by decide +kernel

/-- A good state that is not the reset state: one record queued and peeked, a line in progress, a resend awaited. -/
def goodState : State :=
  { State.reset with
    acc := accOf [0x47, 0x31], cursor := 2, slots := [recG28, {}], count := 1, peekValid := true
    awaiting := true, skipCount := 30, pendingResendLine := 1, consecutiveFormatErrors := 2
    port := [encode (.byte 0x0A false)] }

/-- A good state in the middle of a binary frame, its length known and its last byte at the port. -/
def goodFrame : State :=
  { frameState [0x80, 0x00, 0x80] 4 with port := [encode (.byte 0x01 false)] }

theorem witness_goodState : goodState.Inv where
  params_ok := by decide +kernel
  acc_wf := by decide +kernel
  acc_within := by decide +kernel
  slots_length := by decide +kernel
  count_le := by decide +kernel
  head_lt := by decide +kernel
  busy_iff := by decide +kernel
  text_youngest := by decide +kernel
  awaiting_ok := by decide +kernel
  synced_ok := by decide +kernel
  errors_lt := by decide +kernel
  frame_ok := by decide +kernel
  binary_ok := by decide +kernel
  header_ok := by decide +kernel
  ascii_ok := by decide +kernel
  peek_ok := by decide +kernel
  queue_clean := by decide +kernel
  text_within := by
    unfold Record.textWithin
    decide +kernel
  work_idle := by decide +kernel
  port_ok := by decide +kernel

theorem witness_goodFrame : goodFrame.Inv where
  params_ok := by decide +kernel
  acc_wf := by decide +kernel
  acc_within := by decide +kernel
  slots_length := by decide +kernel
  count_le := by decide +kernel
  head_lt := by decide +kernel
  busy_iff := by decide +kernel
  text_youngest := by decide +kernel
  awaiting_ok := by decide +kernel
  synced_ok := by decide +kernel
  errors_lt := by decide +kernel
  frame_ok := by decide +kernel
  binary_ok := by decide +kernel
  header_ok := by decide +kernel
  ascii_ok := by decide +kernel
  peek_ok := by decide +kernel
  queue_clean := by decide +kernel
  text_within := by
    unfold Record.textWithin
    decide +kernel
  work_idle := by decide +kernel
  port_ok := by decide +kernel

theorem witness_EveryStepKeepsTheInvariant : goodState.Inv ∧ ∃ t, step goodState = .next t := ⟨witness_goodState, _, rfl⟩
theorem witness_NoGoodStateStops : goodFrame.Inv := witness_goodFrame
theorem witness_QueueIsFifo : goodState.Inv ∧ (∃ t, exec (.byte 0x0A false) goodState = .next t) ∧
    (∃ t, exec .peek goodState = .next t) ∧ (∃ t, exec .pop goodState = .next t) ∧
    (∃ t, exec .reset goodState = .next t) ∧ (∃ t, exec .idle goodState = .next t) ∧
    (∃ t, exec (.cfgWrite true) goodState = .next t) ∧ (∃ t, exec .status goodState = .next t) ∧
    (∃ t, exec .rsvd7 goodState = .next t) :=
  ⟨witness_goodState, ⟨_, rfl⟩, ⟨_, rfl⟩, ⟨_, rfl⟩, ⟨_, rfl⟩, ⟨_, rfl⟩, ⟨_, rfl⟩, ⟨_, rfl⟩, ⟨_, rfl⟩⟩
theorem witness_QueueIsFifo_first : goodState.queue = [recG28] ∧ goodState.peekValid = true := by decide +kernel

theorem witness_admits (l : List Byte) : (lineState l).admits := ⟨Nat.zero_ne_add_one 1, rfl⟩

theorem witness_AdmissionOfBytes :
    ({ State.reset with count := 2 } : State).count = ({ State.reset with count := 2 } : State).params.qcap ∧
    (let s : State := { State.reset with count := 1, payloadBusy := true }
     s.count ≠ s.params.qcap ∧ s.payloadBusy = true) := by decide +kernel
theorem witness_AdmissionOfBytes_admits :
    State.reset.admits ∧ ∃ t, exec (.byte 0x47 false) State.reset = .next t :=
  ⟨⟨by decide, rfl⟩, _, rfl⟩
theorem witness_FirstByteRowsClassify :
    State.reset.cursor = 0 ∧ State.reset.comment = false ∧ (Instr.firstBinary 0x80 true).wf = true ∧
    (Instr.firstAscii 0x7F true).wf = true ∧ (lineState [0x47]).cursor ≠ 0 ∧
    ({ State.reset with comment := true } : State).comment = true := by decide +kernel
theorem witness_LaterSourcesAreIgnored : (lineState [0x47]).cursor ≠ 0 ∧
    ({ State.reset with comment := true } : State).comment = true := by decide +kernel

/-- A line one byte short of MAX_CMD_LEN. -/
def longLine : State := { lineState [] with cursor := 95 }

theorem witness_AsciiByteIsStored :
    (let s := longLine
     s.admits ∧ Memory.wf s.acc = true ∧ s.comment = false ∧ s.cursor ≠ 0 ∧ s.binMode = false ∧
       s.cursor.toNat ≠ s.params.maxCmdLen ∧ s.cursor.toNat + 1 = s.params.maxCmdLen ∧
       s.cursor.toNat < s.params.accLen) ∧
    (let s := State.reset
     s.admits ∧ Memory.wf s.acc = true ∧ s.comment = false ∧ s.cursor = 0 ∧ (0x7F : Byte).getLsbD 7 = false ∧
       s.cursor.toNat ≠ s.params.maxCmdLen ∧ s.cursor.toNat < s.params.accLen) := by
  unfold State.admits
  decide +kernel
theorem witness_BinaryByteIsStored :
    (let s := State.reset
     s.admits ∧ Memory.wf s.acc = true ∧ s.comment = false ∧ s.cursor.toNat < s.params.accLen ∧ s.cursor = 0 ∧
       (0x80 : Byte).getLsbD 7 = true) ∧
    (let s := frameState [0x89, 0x00, 0x05, 0x00, 0x00, 0x00, 0x20, 0x41] 10
     s.admits ∧ Memory.wf s.acc = true ∧ s.comment = false ∧ s.cursor.toNat < s.params.accLen ∧ s.cursor ≠ 0 ∧
       s.binMode = true ∧ s.frameLen ≠ 0 ∧ s.cursor + 1 ≠ s.frameLen) := by
  unfold State.admits
  decide +kernel
theorem witness_HeaderByteSetsFrameLength :
    (let s := frameState [0x80] 0
     s.admits ∧ Memory.wf s.acc = true ∧ s.binMode = true ∧ s.comment = false ∧ s.frameLen = 0 ∧ 1 ≤ s.cursor.toNat ∧
       s.cursor.toNat < 5 ∧ ([0x80, 0x00] : List Byte).length = fsNeed [0x80, 0x00] ∧
       ([0x80, 0x10] : List Byte).length ≠ fsNeed [0x80, 0x10]) ∧
    (let s := frameState [0x82, 0x90, 0x00, 0x00] 0
     s.admits ∧ Memory.wf s.acc = true ∧ s.binMode = true ∧ s.comment = false ∧ s.frameLen = 0 ∧ 1 ≤ s.cursor.toNat ∧
       s.cursor.toNat = 4 ∧ ([0x82, 0x90, 0x00, 0x00, 0xFF] : List Byte).length = fsNeed [0x82, 0x90, 0x00, 0x00, 0xFF])
    := by
  unfold State.admits
  decide +kernel
theorem witness_BinaryFrameCompletes :
    (let s := frameState [0x80, 0x00, 0x80] 4
     let m := Memory.write s.acc s.cursor.toNat 0x01
     s.payloadBusy = false ∧ s.count < s.params.qcap ∧ s.slots.length = s.params.qcap ∧ Memory.wf s.acc = true ∧
       s.binMode = true ∧ s.comment = false ∧ s.cursor ≠ 0 ∧ s.cursor.toNat + 1 = s.frameLen.toNat ∧
       4 ≤ s.frameLen.toNat ∧ s.frameLen.toNat ≤ s.params.accLen ∧
       Memory.read m 2 = (dualSum (Memory.slice m 0 2)).1 ∧ Memory.read m 3 = (dualSum (Memory.slice m 0 2)).2 ∧
       Memory.read (Memory.write s.acc s.cursor.toNat 0x02) 3
         ≠ (dualSum (Memory.slice (Memory.write s.acc s.cursor.toNat 0x02) 0 2)).2) ∧
    (let s : State := { frameState [0x80] 133 with cursor := 132 }
     s.payloadBusy = false ∧ s.count < s.params.qcap ∧ s.slots.length = s.params.qcap ∧ Memory.wf s.acc = true ∧
       s.cursor ≠ 0 ∧ s.cursor.toNat + 1 = s.frameLen.toNat ∧ s.frameLen.toNat = s.params.accLen) := by decide +kernel
theorem witness_CommentsAreSuppressed :
    (let s := lineState [0x47]
     s.admits ∧ s.binMode = false ∧ s.comment = false ∧ s.cursor ≠ 0) ∧
    (State.reset.admits ∧ State.reset.comment = false ∧ State.reset.cursor = 0) ∧
    (frameState [0x80] 0).binMode = true ∧
    (let s : State := { lineState [0x47] with comment := true }
     s.admits ∧ s.comment = true ∧ s.binMode = false ∧ (0xFF : Byte) ≠ 0x00 ∧ (0xFF : Byte) ≠ 0x0A ∧
       (0xFF : Byte) ≠ 0x0D) := by
  unfold State.admits
  decide +kernel
theorem witness_EmptyLineIsIgnored :
    (State.reset.cursor = 0 ∧ State.reset.binMode = false ∧ State.reset.admits ∧ State.reset.comment = false) ∧
    (let s : State := { State.reset with comment := true }
     s.cursor = 0 ∧ s.admits ∧ s.comment = true ∧ s.binMode = false) := by
  unfold State.admits
  decide +kernel
theorem witness_TerminatorRowsCompleteTheLine :
    (frameState [0x80] 0).binMode = true ∧ ({ lineState [0x47] with comment := true } : State).comment = true ∧
    (let s := lineState [0x47, 0x31]
     s.binMode = false ∧ s.comment = false ∧ s.cursor ≠ 0 ∧ s.cursor.toNat ≤ s.params.accLen ∧
       s.count < s.params.qcap ∧ s.slots.length = s.params.qcap ∧
       asciiFailure s.cfgChecksumMandatory s.frameSrc (asciiDecode (Memory.slice s.acc 0 s.cursor.toNat)) = none) ∧
    (let s := lineState [0x58, 0x31]
     s.binMode = false ∧ s.comment = false ∧ s.cursor ≠ 0 ∧ s.cursor.toNat ≤ s.params.accLen ∧
       s.count < s.params.qcap ∧ s.slots.length = s.params.qcap ∧
       asciiFailure s.cfgChecksumMandatory s.frameSrc (asciiDecode (Memory.slice s.acc 0 s.cursor.toNat))
         = some .missingRequiredField) := by decide +kernel
theorem witness_TerminatorByteCompletesTheLine :
    (let s := lineState [0x47, 0x31]
     s.payloadBusy = false ∧ s.count < s.params.qcap ∧ s.slots.length = s.params.qcap ∧ s.comment = false ∧
       s.binMode = false ∧ s.cursor ≠ 0 ∧ s.cursor.toNat ≤ s.params.accLen ∧
       asciiFailure s.cfgChecksumMandatory s.frameSrc (asciiDecode (Memory.slice s.acc 0 s.cursor.toNat)) = none) ∧
    (let s : State := { lineState [0x47, 0x31] with cfgChecksumMandatory := true, comment := true }
     s.payloadBusy = false ∧ s.count < s.params.qcap ∧ s.slots.length = s.params.qcap ∧
       s.binMode = false ∧ s.cursor ≠ 0 ∧ s.cursor.toNat ≤ s.params.accLen ∧
       asciiFailure s.cfgChecksumMandatory s.frameSrc (asciiDecode (Memory.slice s.acc 0 s.cursor.toNat))
         = some .missingChecksum) := by decide +kernel
theorem witness_AsciiOverflowFails :
    (let s : State := { lineState [] with cursor := 96 }
     s.admits ∧ s.comment = false ∧ s.cursor ≠ 0 ∧ s.binMode = false ∧ s.cursor.toNat = s.params.maxCmdLen) := by
  unfold State.admits
  decide +kernel

theorem witness_LineNumberReset :
    recM110.pm1.getLsbD 1 = true ∧ recM110.mCode = some 110 ∧ (recReset 10).pm1.getLsbD 1 = true ∧
    (recReset 10).mCode = some 110 ∧ (recReset 10).pm1.getLsbD 0 = true ∧
    State.reset.work.cmd.pm1.getLsbD 1 = false := by decide +kernel
theorem witness_SequencerUnnumbered :
    recG28.pm1.getLsbD 1 = false ∧ recG28.pm1.getLsbD 0 = false ∧
    (let s : State := { State.reset with head := 1, count := 1 }
     s.count < s.params.qcap ∧ s.slots.length = s.params.qcap) := by decide +kernel
/-- Line 0 follows line 65535 (V-SQ-4). -/
theorem witness_SequencerInSequence :
    (recLine 0).pm1.getLsbD 1 = false ∧ (recLine 0).pm1.getLsbD 0 = true ∧
    (let s : State := { State.reset with lastAcceptedLine := 65535 }
     (recLine 0).line.toNat % 65536 = (s.lastAcceptedLine + 1).toNat % 65536 ∧ s.count < s.params.qcap ∧
       s.slots.length = s.params.qcap) := by decide +kernel
theorem witness_SequencerOutOfSequence :
    (recLine 5).pm1.getLsbD 1 = false ∧ (recLine 5).pm1.getLsbD 0 = true ∧
    (recLine 5).line.toNat % 65536 ≠ (State.reset.lastAcceptedLine + 1).toNat % 65536 ∧ State.reset.awaiting = false ∧
    (let s : State := { State.reset with awaiting := true, skipCount := 1, pendingResendLine := 1 }
     (recLine 5).line.toNat % 65536 ≠ (s.lastAcceptedLine + 1).toNat % 65536 ∧ s.awaiting = true) := by decide +kernel
theorem witness_FailurePath :
    ((ErrorKind.checksumMismatch = .checksumMismatch ∨ ErrorKind.checksumMismatch = .missingChecksum) ∧
      (Event.checksumError .checksumMismatch) = .checksumError .checksumMismatch) ∧
    ({ State.reset with consecutiveFormatErrors := 1 } : State).consecutiveFormatErrors.toNat < 2 ∧
    ({ State.reset with consecutiveFormatErrors := 2 } : State).consecutiveFormatErrors.toNat = 2 := by decide +kernel
theorem witness_ThirdFailureForcesAcceptance : State.reset.consecutiveFormatErrors = 0 := by decide
theorem witness_ResendRecovery :
    (let s : State := { State.reset with lastAcceptedLine := 3, head := 1 }
     s.awaiting = false ∧ s.lastAcceptedLine = 3 ∧ s.events = [] ∧ s.head < s.params.qcap ∧
       s.count + 2 ≤ s.params.qcap ∧ s.slots.length = s.params.qcap) ∧
    (recLine 4).pm1.getLsbD 0 = true ∧ (recLine 4).pm1.getLsbD 1 = false ∧ (recLine 4).lineNumber = some 4 ∧
    (recLine 5).pm1.getLsbD 0 = true ∧ (recLine 5).pm1.getLsbD 1 = false ∧ (recLine 5).lineNumber = some 5 := by
  decide +kernel
theorem witness_EventListsHaveTheirShapes : ∃ t, exec (.byte 0x0A false) goodState = .next t := ⟨_, rfl⟩
theorem witness_OnlyAdmittedBytesWriteTheAccumulator :
    (∃ t, exec .reset goodState = .next t ∧ ∀ b src, Instr.reset ≠ .byte b src) ∧
    (∃ t, exec (.byte 0 false) { State.reset with payloadBusy := true } = .next t) ∧
    (∃ t, exec (.byte 0 false) { State.reset with count := 2 } = .next t) :=
  ⟨⟨_, rfl, fun _ _ h => by cases h⟩, ⟨_, rfl⟩, ⟨_, rfl⟩⟩
theorem witness_SequencingStateHasFewWriters :
    (∃ t, exec .pop goodState = .next t ∧ (∀ b src, Instr.pop ≠ .byte b src) ∧ Instr.pop ≠ .reset ∧
      Instr.pop ≠ .termNul ∧ Instr.pop ≠ .termLf ∧ Instr.pop ≠ .termCr ∧ Instr.pop ≠ .termColon ∧ Instr.pop ≠ .m110) ∧
    (∃ t, exec (.byte 0x3B false) State.reset = .next t ∧ Instr.byte 0x3B false ≠ .reset ∧ t.events = []) ∧
    (∃ t, exec .termLf State.reset = .next t ∧ Instr.termLf ≠ .reset ∧ t.events = []) ∧
    (∃ t, exec .m110 State.reset = .next t ∧ Instr.m110 ≠ .reset ∧ t.events = []) :=
  ⟨⟨_, rfl, (fun _ _ h => by cases h), by decide, by decide, by decide, by decide, by decide, by decide⟩,
    ⟨_, rfl, by decide, by decide⟩, ⟨_, rfl, by decide, by decide⟩, ⟨_, rfl, by decide, by decide⟩⟩
theorem witness_ControlBitsHaveFewWriters :
    (∃ t, exec .peek goodState = .next t) ∧ Instr.peek ≠ .reset ∧ Instr.peek ≠ .pop ∧ (∀ v, Instr.peek ≠ .cfgWrite v) ∧
    (∃ t, exec .idle { State.reset with popFault := true } = .next t) ∧ Instr.idle ≠ .reset ∧ Instr.idle ≠ .peek ∧
    Instr.idle ≠ .pop :=
  ⟨⟨_, rfl⟩, by decide, by decide, (fun _ h => by cases h), ⟨_, rfl⟩, by decide, by decide, by decide⟩

theorem witness_HeaderRows :
    ({ State.reset with acc := accOf [0x89, 0x00] } : State).littleEndian 0 2 = 0x0089 ∧
    (0x0089 : Half).getLsbD 12 = false ∧
    ({ State.reset with acc := accOf [0x82, 0x90] } : State).littleEndian 0 2 = 0x9082 ∧
    (0x9082 : Half).getLsbD 12 = true := by decide +kernel
/-- Each field row, its bit clear and set, at the last offset its bytes fit. -/
theorem witness_NumberFieldRows :
    (fieldState [] 0x0000 0 131).work.bf1.getLsbD 0 = false ∧
    (let s := fieldState [] 0x0007 0 131
     s.work.bf1.getLsbD 0 = true ∧ s.work.bf1.getLsbD 1 = true ∧ s.work.bf1.getLsbD 2 = true ∧
       s.work.off + 2 ≤ s.params.accLen) ∧
    (let s := fieldState [] 0x1007 0 131
     s.work.bf1.getLsbD 12 = true ∧ s.work.off + 2 ≤ s.params.accLen) := by decide +kernel
theorem witness_ValueFieldRows :
    (∀ k ∈ [3, 4, 5, 6, 8, 9, 10, 11], (fieldState [] 0x0000 0 129).work.bf1.getLsbD k = false ∧
      (fieldState [] 0x0F78 0 129).work.bf1.getLsbD k = true) ∧
    (fieldState [] 0x0F78 0 129).work.off + 4 ≤ (fieldState [] 0x0F78 0 129).params.accLen := by decide +kernel
theorem witness_ArcFieldRows :
    ∀ k < 3, (fieldState [] 0x0080 0 129).work.bf1.getLsbD 12 = false ∧
      (fieldState [] 0x1080 0 129).work.bf2.getLsbD k = false ∧ (fieldState [] 0x1080 7 129).work.bf1.getLsbD 12 = true ∧
      (fieldState [] 0x1080 7 129).work.bf2.getLsbD k = true ∧
      (fieldState [] 0x1080 7 129).work.off + 4 ≤ (fieldState [] 0x1080 7 129).params.accLen := by decide +kernel
theorem witness_TextRows :
    (let s := fieldState [] 0x8080 0 255
     s.work.off < 256 ∧ s.work.bf1.getLsbD 15 = true ∧ s.work.bf1.getLsbD 12 = false) ∧
    (let s : State := { State.reset with work := { bf1 := 0x9080, off := 255, tl := some 80 } }
     s.work.off < 256 ∧ s.work.bf1.getLsbD 15 = true ∧ s.work.bf1.getLsbD 12 = true ∧ s.work.tl = some 80) ∧
    State.reset.work.bf1.getLsbD 15 = false := by decide +kernel

theorem witness_FrameSizeRangeAndNeutralBits :
    (fsSize [0x80] = none ∧ fsSize [0x80, 0x10, 0x00] = none ∧ fsSize [0x80, 0x90, 0x00, 0x00] = none) ∧
    fsSize [0x80, 0x00] = some 4 ∧ fsSize [0xFF, 0x9F, 0x07, 0x00, 0x4F] = some 133 ∧
    (headerBf1 [0x80, 0x00]).getLsbD 12 = false ∧ (headerBf1 [0xFF, 0x9F, 0x07, 0x00, 0x4F]).getLsbD 12 = true ∧
    (let h : List Byte := [0x80, 0x00]
     let h' : List Byte := [0x00, 0x60, 0xFF]
     h.length = fsNeed h ∧ fsNeed h' ≤ h'.length ∧
       (∀ k < 16, k ≠ 7 → k ≠ 13 → k ≠ 14 → (headerBf1 h).getLsbD k = (headerBf1 h').getLsbD k)) ∧
    (let h : List Byte := [0x80, 0x10, 0x00, 0x00]
     let h' : List Byte := [0x00, 0x70, 0xF8, 0xFF]
     h.length = fsNeed h ∧ h'.length = fsNeed h' ∧ (headerBf1 h).getLsbD 12 = true ∧
       (∀ k < 16, k ≠ 7 → k ≠ 13 → k ≠ 14 → (headerBf1 h).getLsbD k = (headerBf1 h').getLsbD k) ∧
       (∀ k < 3, (headerBf2 h).getLsbD k = (headerBf2 h').getLsbD k)) ∧
    (let h : List Byte := [0x80, 0x90, 0xFF, 0xFF, 0x05]
     let h' : List Byte := [0x00, 0xF0, 0x07, 0x00, 0x05]
     h.length = fsNeed h ∧ h'.length = fsNeed h' ∧
       (∀ k < 16, k ≠ 7 → k ≠ 13 → k ≠ 14 → (headerBf1 h).getLsbD k = (headerBf1 h').getLsbD k) ∧
       (∀ k < 3, (headerBf2 h).getLsbD k = (headerBf2 h').getLsbD k) ∧ h[4]? = h'[4]?) :=
  ⟨by decide +kernel, by decide +kernel, by decide +kernel, by decide +kernel, by decide +kernel, by decide +kernel,
    by decide +kernel, by decide +kernel⟩

/-- The smallest frame's record, and the longest text a V2 frame carries. -/
def recEmpty : Record := { pm1 := 0x0080 }
/-- A V2 record with 79 bytes of text. -/
def recLongText : Record := { pm1 := 0x9080, textStart := some 5, textLen := some 79 }

theorem witness_EncodedLengthIsFrameSize :
    recEmpty.pm1.getLsbD 15 = false ∧
    (recLongText.pm1.getLsbD 15 = true ∧ (List.replicate 79 (0x41 : Byte)).length < 256 ∧
      recLongText.textLen = some (BitVec.ofNat 8 (List.replicate 79 (0x41 : Byte)).length)) ∧
    (let r : Record := { pm1 := 0x8080, textLen := some 255 }
     r.pm1.getLsbD 15 = true ∧ r.textLen = some (BitVec.ofNat 8 (List.replicate 255 (0x41 : Byte)).length)) := by
  decide +kernel
theorem witness_BinaryDecodeCannotFail : 133 ≤ State.reset.params.accLen := by decide
theorem witness_EncodeDecodeRoundTrip :
    encodable recEmpty [] = true ∧ encodable recLongText (List.replicate 79 0x41) = true ∧ 133 ≤ State.reset.params.accLen ∧
    ∀ k b, (encodeRecord recEmpty [])[k]? = some b → Memory.read (accOf [0x80, 0x00, 0x80, 0x01]) k = b := by
  refine ⟨by decide +kernel, by decide +kernel, by decide, fun k b h => ?_⟩
  have he : encodeRecord recEmpty [] = [0x80, 0x00, 0x80, 0x01] := by decide +kernel
  rw [he] at h
  obtain ⟨hk, rfl⟩ := List.getElem?_eq_some_iff.1 h
  have hk : k < 4 := hk
  have hm : ∀ k < 4, some (Memory.read (accOf [0x80, 0x00, 0x80, 0x01]) k) = [(0x80 : Byte), 0x00, 0x80, 0x01][k]? := by
    decide +kernel
  have := hm k hk
  rw [List.getElem?_eq_getElem hk] at this
  exact Option.some.inj this
theorem witness_DualSumSensitivity :
    (0x05 : Byte).toNat % 255 ≠ (0x06 : Byte).toNat % 255 ∧
    frameValid ([0x80, 0x00] ++ [0x80, 0x01]) = true ∧ ((0x80 : Byte), (0x01 : Byte)) ≠ (0x80, 0x02) := by decide +kernel

theorem witness_ChecksumStarRow :
    (let s := tokenState [0x47, 0x31]
     s.work.len ≤ s.params.accLen ∧ AbsentBelow 0x2A s.content s.work.len) ∧
    (let s := tokenState [0x2A]
     s.work.len ≤ s.params.accLen ∧ FirstAt 0x2A s.content s.work.len 0 ∧ s.content.drop 1 = [] ++ []) ∧
    (let s := tokenState [0x47, 0x31, 0x2A, 0x31, 0x31, 0x38, 0x78]
     s.work.len ≤ s.params.accLen ∧ FirstAt 0x2A s.content s.work.len 2 ∧
       s.content.drop 3 = [0x31, 0x31, 0x38] ++ [0x78] ∧ (∀ d ∈ ([0x31, 0x31, 0x38] : List Byte), isDigit d = true)) := by
  unfold AbsentBelow FirstAt
  decide +kernel
theorem witness_StopsDigits : StopsDigits [] ∧ StopsDigits [0x78] :=
  ⟨fun _ h => by simp at h, fun b h => by simp at h; subst h; decide⟩
/-- "G28*77" passes (V-XO-14). -/
theorem witness_XorSensitivity :
    (0x32 : Byte) ≠ 0x33 ∧ (0x33 : Byte) ≠ 0x2A ∧ (∀ x ∈ ([0x47] : List Byte) ++ 0x32 :: [0x38], x ≠ 0x2A) ∧
    asciiFailure true false (asciiDecode ([0x47] ++ 0x32 :: [0x38] ++ 0x2A :: [0x37, 0x37])) ≠ some .checksumMismatch := by
  decide +kernel
theorem witness_TokenMRow :
    (let s := tokenState [0x47, 0x31]
     s.work.len ≤ s.params.accLen ∧ AbsentBelow 0x4D s.bodyBytes s.bodyBytes.length) ∧
    (let s := tokenState [0x47, 0x31, 0x4D]
     s.work.len ≤ s.params.accLen ∧ FirstAt 0x4D s.bodyBytes s.bodyBytes.length 2 ∧ parseInt (s.bodyBytes.drop 3) = none) ∧
    (let s := tokenState [0x4D, 0x32, 0x33]
     s.work.len ≤ s.params.accLen ∧ FirstAt 0x4D s.bodyBytes s.bodyBytes.length 0 ∧
       parseInt (s.bodyBytes.drop 1) = some 23) := by
  unfold AbsentBelow FirstAt
  decide +kernel
theorem witness_IntegerTokenRows :
    (∀ ch ∈ ([0x4E, 0x47, 0x54, 0x53, 0x50] : List Byte),
      (let s := tokenState [0x4D, 0x31]
       s.work.len ≤ s.params.accLen ∧ AbsentBelow ch s.bodyBytes s.searchEnd) ∧
      (let s := tokenState [0x20, ch]
       s.work.len ≤ s.params.accLen ∧ FirstAt ch s.bodyBytes s.searchEnd 1 ∧ parseInt (s.bodyBytes.drop 2) = none) ∧
      (let s := tokenState [ch, 0x2D, 0x31]
       s.work.len ≤ s.params.accLen ∧ FirstAt ch s.bodyBytes s.searchEnd 0 ∧
         parseInt (s.bodyBytes.drop 1) = some (-1))) ∧
    AbsentBelow 0x4E (textState [0x4D, 0x32, 0x33, 0x20, 0x4E, 0x39] 0 23).bodyBytes
      (textState [0x4D, 0x32, 0x33, 0x20, 0x4E, 0x39] 0 23).searchEnd := by
  unfold AbsentBelow FirstAt
  decide +kernel
theorem witness_FloatTokenRows :
    ∀ ch ∈ ([0x58, 0x59, 0x5A, 0x45, 0x46, 0x49, 0x4A, 0x52] : List Byte),
      (let s := tokenState [0x4D, 0x31]
       s.work.len ≤ s.params.accLen ∧ AbsentBelow ch s.bodyBytes s.searchEnd) ∧
      (let s := tokenState [0x20, ch, 0x2E]
       s.work.len ≤ s.params.accLen ∧ FirstAt ch s.bodyBytes s.searchEnd 1 ∧ parseFloat (s.bodyBytes.drop 2) = none) ∧
      (let s := tokenState [ch, 0x2E, 0x35]
       s.work.len ≤ s.params.accLen ∧ FirstAt ch s.bodyBytes s.searchEnd 0 ∧
         parseFloat (s.bodyBytes.drop 1) = some 0x3F000000) := by
  unfold AbsentBelow FirstAt
  decide +kernel
/-- After "M32": " a<TAB>b c", a TAB inside the word (D17). -/
theorem textParts_word : TextParts [0x4D, 0x33, 0x32, 0x20, 0x61, 0x09, 0x62, 0x20, 0x63] 0
    [0x33, 0x32] [0x20] [0x61, 0x09, 0x62] [0x20, 0x63] :=
  ⟨by decide, by decide, by decide, by decide, fun b h => by simp at h; subst h; decide, by decide,
    fun b h => by simp at h; exact h.symm, by decide, by decide⟩
/-- After "M117": nothing. -/
theorem textParts_none : TextParts [0x4D, 0x31, 0x31, 0x37] 0 [0x31, 0x31, 0x37] [] [] [] :=
  ⟨by decide, by decide, by decide, by decide, fun b h => by simp at h, by decide, fun b h => by simp at h, by decide,
    by decide⟩
/-- "M32 a<TAB>b c", then "M117" with no text. -/
theorem witness_TextCaptureRows :
    (Instr.m32, (32 : Half)) ∈ [(Instr.m23, (23 : Half)), (.m28, 28), (.m29, 29), (.m30, 30), (.m32, 32), (.m117, 117),
      (.m3117, 3117)] ∧
    (tokenState [0x47]).work.textMode = false ∧
    (let s := textState [0x4D, 0x33, 0x32, 0x20, 0x61, 0x09, 0x62, 0x20, 0x63] 0 32
     (s.work.len ≤ s.params.accLen ∧ s.work.textMode = true ∧ s.work.cmd.mCode = some 32 ∧ s.work.mpos = some 0) ∧
       TextParts s.bodyBytes 0 [0x33, 0x32] [0x20] [0x61, 0x09, 0x62] [0x20, 0x63]) ∧
    (let s := textState [0x4D, 0x31, 0x31, 0x37] 0 117
     (s.work.len ≤ s.params.accLen ∧ s.work.textMode = true ∧ s.work.cmd.mCode = some 117 ∧ s.work.mpos = some 0) ∧
       TextParts s.bodyBytes 0 [0x31, 0x31, 0x37] [] [] []) :=
  ⟨by decide, by decide, ⟨by decide +kernel, textParts_word⟩, ⟨by decide +kernel, textParts_none⟩⟩
/-- "G1" and "*" for the body's end, "G1" and "M32 a<TAB>b c" for the two modes. -/
theorem witness_AsciiDecodeAndMasks :
    (AbsentBelow 0x2A [0x47, 0x31] 2 ∧ FirstAt 0x2A [0x2A] 1 0) ∧ (asciiDecode [0x47, 0x31]).textMode = false ∧
    (let c : List Byte := [0x4D, 0x33, 0x32, 0x20, 0x61, 0x09, 0x62, 0x20, 0x63]
     ((asciiDecode c).textMode = true ∧ (asciiDecode c).mpos = some 0 ∧ c.take (asciiDecode c).bodyEnd = c) ∧
       TextParts c 0 [0x33, 0x32] [0x20] [0x61, 0x09, 0x62] [0x20, 0x63]) :=
  ⟨by unfold AbsentBelow FirstAt; decide +kernel, by decide +kernel, by decide +kernel, textParts_word⟩
theorem witness_IsSign : IsSign [] false ∧ IsSign [0x2B] false ∧ IsSign [0x2D] true :=
  ⟨.inl ⟨rfl, rfl⟩, .inr (.inl ⟨rfl, rfl⟩), .inr (.inr ⟨rfl, rfl⟩)⟩
theorem witness_IntegerGrammar :
    (IsSign [0x2D] true ∧ (∀ d ∈ ([0x35] : List Byte), isDigit d = true) ∧ StopsDigits [0x78] ∧ ([0x35] : List Byte) ≠ []) ∧
    (IsSign [] false ∧ StopsDigits [0x78] ∧ ∀ b, ([0x78] : List Byte).head? = some b → b ≠ 0x2B ∧ b ≠ 0x2D) :=
  ⟨⟨witness_IsSign.2.2, by decide, witness_StopsDigits.2, by decide⟩, witness_IsSign.1, witness_StopsDigits.2,
    fun b h => by simp at h; subst h; decide⟩
theorem witness_DecimalGrammar :
    IsSign [0x2D] true ∧ (∀ d ∈ ([0x30, 0x39] : List Byte), isDigit d = true) ∧ StopsDigits [] ∧ StopsDigits [0x78] ∧
    ([0x30, 0x39] : List Byte) ≠ [] ∧ ([0x78] : List Byte).head? ≠ some 0x2E ∧
    (∀ b, ([0x78] : List Byte).head? = some b → b ≠ 0x2B ∧ b ≠ 0x2D) :=
  ⟨witness_IsSign.2.2, by decide, witness_StopsDigits.1, witness_StopsDigits.2, by decide, by decide,
    fun b h => by simp at h; subst h; decide⟩
/-- Both sides of the overflow bound, and zero. -/
theorem witness_DecimalIsRoundedToNearest :
    0 < 1 ∧ (2 ^ 128 - 2 ^ 103) * 1 ≤ 2 ^ 128 - 2 ^ 103 ∧ 2 ^ 128 - 2 ^ 103 - 1 < (2 ^ 128 - 2 ^ 103) * 1 ∧
    0 < (2 ^ 128 - 2 ^ 103) * 10 := by decide

end Sys2Proof.Tests
end

section
/-! # What the intake of a byte and the Sequencer leave unchanged -/

namespace Sys2Proof.Machine

/-! ## The frame of the intake -/

/-- The registers and model fields that neither the intake of a byte nor the Sequencer writes. -/
structure State.Kept (s t : State) : Prop where
  params : t.params = s.params
  head : t.head = s.head
  peekValid : t.peekValid = s.peekValid
  cfgChecksumMandatory : t.cfgChecksumMandatory = s.cfgChecksumMandatory
  popFault : t.popFault = s.popFault
  work : t.work = s.work
  port : t.port = s.port

/-- The registers of R29 to R32 are the same, and so is the event list. -/
structure State.SeqKept (s t : State) : Prop where
  events : t.events = s.events
  lastAcceptedLine : t.lastAcceptedLine = s.lastAcceptedLine
  awaiting : t.awaiting = s.awaiting
  pendingResendLine : t.pendingResendLine = s.pendingResendLine
  skipCount : t.skipCount = s.skipCount
  consecutiveFormatErrors : t.consecutiveFormatErrors = s.consecutiveFormatErrors

/-- All that the intake of a byte may do outside its own registers and the queue: what `Kept` names stays, and the
sequencing registers stay too unless an event tells of the change. -/
structure State.IntakeFrame (s t : State) : Prop where
  kept : s.Kept t
  silent : t.events = [] → s.SeqKept t

namespace State

theorem Kept.trans {s t u : State} (hst : s.Kept t) (htu : t.Kept u) : s.Kept u where
  params := htu.params.trans hst.params
  head := htu.head.trans hst.head
  peekValid := htu.peekValid.trans hst.peekValid
  cfgChecksumMandatory := htu.cfgChecksumMandatory.trans hst.cfgChecksumMandatory
  popFault := htu.popFault.trans hst.popFault
  work := htu.work.trans hst.work
  port := htu.port.trans hst.port

theorem SeqKept.trans {s t u : State} (hst : s.SeqKept t) (htu : t.SeqKept u) : s.SeqKept u where
  events := htu.events.trans hst.events
  lastAcceptedLine := htu.lastAcceptedLine.trans hst.lastAcceptedLine
  awaiting := htu.awaiting.trans hst.awaiting
  pendingResendLine := htu.pendingResendLine.trans hst.pendingResendLine
  skipCount := htu.skipCount.trans hst.skipCount
  consecutiveFormatErrors := htu.consecutiveFormatErrors.trans hst.consecutiveFormatErrors

theorem IntakeFrame.trans {s t u : State} (hst : s.IntakeFrame t) (htu : t.IntakeFrame u) : s.IntakeFrame u where
  kept := hst.kept.trans htu.kept
  silent hu :=
    have hk := htu.silent hu
    (hst.silent (hk.events.symm.trans hu)).trans hk

/-- Whatever is written into acc and the intake registers (R23 to R28), the rest is framed. -/
theorem intakeFrame_write (s : State) (acc : List Host.Cell) (cursor frameLen : Byte)
    (binMode comment frameSrc : Bool) :
    s.IntakeFrame { s with acc, cursor, frameLen, binMode, comment, frameSrc } :=
  ⟨⟨rfl, rfl, rfl, rfl, rfl, rfl, rfl⟩, fun _ => ⟨rfl, rfl, rfl, rfl, rfl, rfl⟩⟩

theorem IntakeFrame.refl (s : State) : s.IntakeFrame s := intakeFrame_write s ..

/-- What emits an event need keep none of the sequencing registers. -/
theorem IntakeFrame.of_events {s t : State} (hk : s.Kept t) (he : t.events ≠ []) : s.IntakeFrame t :=
  ⟨hk, fun h => absurd h he⟩

/-! ## Failure, sequencing and completion -/

theorem fail_intakeFrame (s : State) (k : ErrorKind) : s.IntakeFrame (s.fail k) := by
  rcases s.fail_cases k with ⟨-, h⟩ | ⟨-, h⟩
  all_goals
    rw [h]
    exact .of_events ⟨rfl, rfl, rfl, rfl, rfl, rfl, rfl⟩ (by simp)

theorem push_kept {s t : State} {r : Record} (h : s.push r = .ok t) : s.Kept t := by
  obtain ⟨-, -, rfl⟩ := push_cases h
  exact ⟨rfl, rfl, rfl, rfl, rfl, rfl, rfl⟩

theorem emit_intakeFrame {s t : State} (h : s.Kept t) (e : Event) : s.IntakeFrame (t.emit e) :=
  .of_events ⟨h.params, h.head, h.peekValid, h.cfgChecksumMandatory, h.popFault, h.work, h.port⟩ (by simp)

theorem lineReset_intakeFrame (s : State) (r : Record) : s.IntakeFrame (s.lineReset r) :=
  .of_events ⟨rfl, rfl, rfl, rfl, rfl, rfl, rfl⟩ (by simp)

theorem clearErrors_kept (s : State) : s.Kept s.clearErrors := ⟨rfl, rfl, rfl, rfl, rfl, rfl, rfl⟩

theorem advanceTo_kept (s : State) (l : Word) : s.Kept (s.advanceTo l) := ⟨rfl, rfl, rfl, rfl, rfl, rfl, rfl⟩

/-- Whichever branch of SEQ is taken, it emits (R335). -/
theorem sequence_intakeFrame {s t : State} {r : Record} (h : s.sequence r = .ok t) : s.IntakeFrame t := by
  rcases sequence_cases h with ⟨-, rfl⟩ | ⟨-, -, u, hu, rfl⟩ | ⟨-, -, -, u, hu, rfl⟩ | ⟨-, -, -, -, rfl⟩ |
    ⟨-, -, -, -, rfl⟩
  · exact .of_events ⟨rfl, rfl, rfl, rfl, rfl, rfl, rfl⟩ (by simp)
  · exact emit_intakeFrame (s.clearErrors_kept.trans (push_kept hu)) _
  · exact emit_intakeFrame ((s.clearErrors_kept.trans (advanceTo_kept _ _)).trans (push_kept hu)) _
  · exact .of_events ⟨rfl, rfl, rfl, rfl, rfl, rfl, rfl⟩ (by simp [gap])
  · exact .of_events ⟨rfl, rfl, rfl, rfl, rfl, rfl, rfl⟩ (by simp)

/-- All that the text terminator of a frame can do (R180). -/
theorem terminateText_cases (s : State) (w : Work) (l : Nat) :
    s.terminateText w l = s ∨ s.terminateText w l = { s with acc := Memory.write s.acc (l - 2) 0 } := by
  unfold terminateText
  split
  · exact .inr rfl
  · exact .inl rfl

theorem terminateText_intakeFrame (s : State) (w : Work) (l : Nat) : s.IntakeFrame (s.terminateText w l) := by
  rcases s.terminateText_cases w l with h | h <;> rw [h]
  · exact .refl s
  · exact intakeFrame_write s ..

theorem completeBinary_intakeFrame {s t : State} {l : Nat} (h : s.completeBinary l = .ok t) : s.IntakeFrame t := by
  have hl : s.IntakeFrame s.leaveFrame := intakeFrame_write s ..
  obtain ⟨-, -, ⟨-, rfl⟩ | ⟨-, w, -, hw⟩⟩ := completeBinary_cases h
  · exact hl.trans (fail_intakeFrame ..)
  · exact (hl.trans (terminateText_intakeFrame ..)).trans (sequence_intakeFrame hw)

theorem completeAscii_intakeFrame {s t : State} {n : Nat} (h : s.completeAscii n = .ok t) : s.IntakeFrame t := by
  obtain ⟨-, ⟨k, -, rfl⟩ | ⟨-, hq⟩⟩ := completeAscii_cases h
  · exact fail_intakeFrame ..
  · exact sequence_intakeFrame hq

theorem endLine_intakeFrame {s t : State} (h : s.endLine = .ok t) : s.IntakeFrame t := by
  rcases endLine_cases h with ⟨-, rfl⟩ | ⟨-, h⟩
  · exact .refl _
  · exact (intakeFrame_write s ..).trans (completeAscii_intakeFrame h)

theorem endComment_intakeFrame {s t : State} (h : s.endComment = .ok t) : s.IntakeFrame t :=
  (intakeFrame_write s ..).trans (endLine_intakeFrame h)

/-! ## The branches of the intake -/

/-- All that the classification of a byte can do (R263). -/
theorem classifyFirst_cases (s : State) (b : Byte) (src : Bool) :
    (s.cursor = 0 ∧ s.comment = false ∧ s.classifyFirst b src = s.classify b src) ∨
    (¬ (s.cursor = 0 ∧ s.comment = false) ∧ s.classifyFirst b src = s) := by
  have hs : s.atCommandStart = true ↔ s.cursor = 0 ∧ s.comment = false := by simp [atCommandStart]
  unfold classifyFirst
  split
  next h => exact .inl ⟨(hs.1 h).1, (hs.1 h).2, rfl⟩
  next h => exact .inr ⟨fun hc => h (hs.2 hc), rfl⟩

theorem classifyFirst_intakeFrame (s : State) (b : Byte) (src : Bool) : s.IntakeFrame (s.classifyFirst b src) := by
  rcases s.classifyFirst_cases b src with ⟨-, -, h⟩ | ⟨-, h⟩ <;> rw [h]
  · exact intakeFrame_write s ..
  · exact .refl s

theorem storeByte_intakeFrame {s t : State} {b : Byte} (h : s.storeByte b = .ok t) : s.IntakeFrame t := by
  obtain ⟨-, rfl⟩ := storeByte_cases h
  exact intakeFrame_write s ..

theorem learnSize_intakeFrame (s : State) : s.IntakeFrame s.learnSize := by
  rcases s.learnSize_cases with ⟨n, -, -, -, -, h⟩ | h <;> rw [h]
  · exact intakeFrame_write s ..
  · exact .refl s

theorem binaryByte_intakeFrame {s t : State} {b : Byte} (h : s.binaryByte b = .ok t) : s.IntakeFrame t := by
  obtain ⟨u, hu, hc⟩ := binaryByte_cases h
  have hl : s.IntakeFrame u.learnSize := (storeByte_intakeFrame hu).trans u.learnSize_intakeFrame
  rcases hc with ⟨-, -, hc⟩ | ⟨-, rfl⟩
  · exact hl.trans (completeBinary_intakeFrame hc)
  · exact hl

theorem overflow_intakeFrame (s : State) : s.IntakeFrame s.overflow :=
  (intakeFrame_write s ..).trans (fail_intakeFrame ..)

theorem asciiByte_intakeFrame {s t : State} {b : Byte} (h : s.asciiByte b = .ok t) : s.IntakeFrame t := by
  rcases asciiByte_cases h with ⟨-, -, h⟩ | ⟨-, -, rfl⟩ | ⟨-, -, h⟩ | ⟨-, -, -, rfl⟩ | ⟨-, -, -, -, rfl⟩ |
    ⟨-, -, -, -, h⟩
  · exact endComment_intakeFrame h
  · exact .refl _
  · exact endLine_intakeFrame h
  · exact intakeFrame_write s ..
  · exact s.overflow_intakeFrame
  · exact storeByte_intakeFrame h

/-- All that the intake of a byte can do (R260). -/
theorem intake_cases {s t : State} {b : Byte} {src : Bool} (h : s.intake b src = .ok t) :
    ((s.classifyFirst b src).binMode = true ∧ (s.classifyFirst b src).binaryByte b = .ok t) ∨
    ((s.classifyFirst b src).binMode = false ∧ (s.classifyFirst b src).asciiByte b = .ok t) := by
  unfold intake at h
  cases hm : (s.classifyFirst b src).binMode with
  | true => exact .inl ⟨rfl, by simpa [hm] using h⟩
  | false => exact .inr ⟨rfl, by simpa [hm] using h⟩

theorem intake_intakeFrame {s t : State} {b : Byte} {src : Bool} (h : s.intake b src = .ok t) : s.IntakeFrame t := by
  refine (s.classifyFirst_intakeFrame b src).trans ?_
  rcases intake_cases h with ⟨-, h⟩ | ⟨-, h⟩
  · exact binaryByte_intakeFrame h
  · exact asciiByte_intakeFrame h

theorem hardTerminator_intakeFrame {s t : State} (h : s.hardTerminator = .ok t) : s.IntakeFrame t := by
  unfold hardTerminator at h
  split at h
  · injection h with h
    exact h ▸ .refl s
  · split at h
    · exact endComment_intakeFrame h
    · exact endLine_intakeFrame h

end State

/-! ## The frame of an instruction -/

/-- The rows of binary and ASCII decode, which by themselves act on the decode in progress alone
(notes/assumptions/3.md). -/
def isDecodeRow : Instr → Bool
  | .idle | .byte .. | .peek | .pop | .reset | .cfgWrite _ | .status | .rsvd7 | .firstBinary .. | .firstAscii ..
  | .termNul | .termLf | .termCr | .termColon | .comment | .m110 => false
  | _ => true

theorem finishRow_work {s t : State} {x : Except Fault Work} (h : finishRow s x = .next t) :
    ∃ w, t = { s.consume with work := w } :=
  let ⟨w, _, ht⟩ := finishRow_next.1 h
  ⟨w, ht⟩

theorem asciiRow_work {s t : State} {row : List Byte → Work → Work} (h : asciiRow s row = .next t) :
    ∃ w, t = { s.consume with work := w } :=
  ⟨_, (asciiRow_next.1 h).2⟩

/-- All that a decode row run by itself changes. -/
theorem exec_of_isDecodeRow {i : Instr} {s t : State} (hi : isDecodeRow i = true) (h : exec i s = .next t) :
    ∃ w, t = { s.consume with work := w } := by
  cases i with
  | bf1V1 | bf1V2 | bf1N | bf1M | bf1G | bf1X | bf1Y | bf1Z | bf1E | bf1F | bf1T | bf1S | bf1P | bf2I | bf2J | bf2R =>
    exact finishRow_work h
  | bf1Mark | bf1Ext | bf1Internal | bf1TextV1 | bf1TextV2 | bf2Rsv =>
    injection h with h
    exact ⟨_, h.symm⟩
  | tokM | tokN | tokG | tokX | tokY | tokZ | tokE | tokF | tokT | tokS | tokP | tokI | tokJ | tokR | checksumStar
  | m23 | m28 | m29 | m30 | m32 | m117 | m3117 => exact asciiRow_work h
  | _ => cases hi

/-- Every instruction but PEEK, POP, RESET and CFG_WRITE takes its word, latches a response or a decode, and for the
rest keeps to the frame of the intake. -/
theorem exec_intakeFrame {i : Instr} {s t : State} (h : exec i s = .next t) (hpeek : i ≠ .peek) (hpop : i ≠ .pop)
    (hreset : i ≠ .reset) (hcfg : ∀ v, i ≠ .cfgWrite v) :
    ∃ r w, ({ s.consume with response := r, work := w } : State).IntakeFrame t := by
  cases hd : isDecodeRow i with
  | true =>
    obtain ⟨w, rfl⟩ := exec_of_isDecodeRow hd h
    exact ⟨s.response, w, .refl _⟩
  | false =>
    cases i with
    | idle | rsvd7 | status =>
      injection h with h
      subst h
      exact ⟨_, s.work, .refl _⟩
    | byte b src =>
      rcases execByte_next h with ⟨-, rfl⟩ | ⟨-, -, rfl⟩ | ⟨-, -, h⟩
      · exact ⟨.refused .queueFull, s.work, .refl _⟩
      · exact ⟨.refused .payloadInUse, s.work, .refl _⟩
      · exact ⟨.accepted, s.work, State.intake_intakeFrame h⟩
    | firstBinary b src | firstAscii b src =>
      injection h with h
      exact ⟨s.response, s.work, h ▸ s.consume.classifyFirst_intakeFrame b src⟩
    | termNul | termLf | termCr => exact ⟨s.response, s.work, State.hardTerminator_intakeFrame (finish_next.1 h)⟩
    | termColon =>
      replace h : execTermColon s = .next t := h
      unfold execTermColon at h
      split at h
      · injection h with h
        exact ⟨s.response, s.work, h ▸ .refl _⟩
      · exact ⟨s.response, s.work, State.endLine_intakeFrame (finish_next.1 h)⟩
    | comment =>
      replace h : execComment s = .next t := h
      unfold execComment at h
      split at h <;> injection h with h
      · exact ⟨s.response, s.work, h ▸ .refl _⟩
      · exact ⟨s.response, s.work, h ▸ State.intakeFrame_write s.consume ..⟩
    | m110 =>
      replace h : execM110 s = .next t := h
      unfold execM110 at h
      split at h <;> injection h with h
      · exact ⟨s.response, s.work, h ▸ State.lineReset_intakeFrame s.consume _⟩
      · exact ⟨s.response, s.work, h ▸ .refl _⟩
    | cfgWrite v => exact absurd rfl (hcfg v)
    | peek | pop | reset => contradiction
    | _ => cases hd

end Sys2Proof.Machine
end

section
/-! # Who writes the sequencing registers and the control bits; the STATUS words -/

namespace Sys2Proof.Machine

/-! ## Few writers -/

/-- An instruction that completes no command emits nothing (R335). -/
theorem exec_events_nil {i : Instr} {s t : State} (h : exec i s = .next t) (hbyte : ∀ b src, i ≠ .byte b src)
    (hnul : i ≠ .termNul) (hlf : i ≠ .termLf) (hcr : i ≠ .termCr) (hcolon : i ≠ .termColon) (hm110 : i ≠ .m110) :
    t.events = [] := by
  cases hd : isDecodeRow i with
  | true =>
    obtain ⟨w, rfl⟩ := exec_of_isDecodeRow hd h
    rfl
  | false =>
    cases i with
    | idle | rsvd7 | status | reset | cfgWrite =>
      injection h with h
      exact h ▸ rfl
    | peek => rcases execPeek_next h with ⟨-, rfl⟩ | ⟨-, r, text, -, -, rfl⟩ <;> rfl
    | pop => rcases execPop_next h with ⟨-, r, -, rfl⟩ | ⟨-, rfl⟩ <;> rfl
    | firstBinary b src | firstAscii b src =>
      injection h with h
      rcases s.consume.classifyFirst_cases b src with ⟨-, -, hc⟩ | ⟨-, hc⟩ <;> rw [← h, hc] <;> rfl
    | comment =>
      replace h : execComment s = .next t := h
      unfold execComment at h
      split at h <;> injection h with h <;> exact h ▸ rfl
    | byte b src => exact absurd rfl (hbyte b src)
    | termNul | termLf | termCr | termColon | m110 => contradiction
    | _ => cases hd

/-- Without an event no instruction but RESET changes a sequencing register. -/
theorem exec_seqKept {i : Instr} {s t : State} (h : exec i s = .next t) (hreset : i ≠ .reset) (he : t.events = []) :
    s.consume.SeqKept t := by
  cases i with
  | peek => rcases execPeek_next h with ⟨-, rfl⟩ | ⟨-, r, text, -, -, rfl⟩ <;> exact ⟨rfl, rfl, rfl, rfl, rfl, rfl⟩
  | pop => rcases execPop_next h with ⟨-, r, -, rfl⟩ | ⟨-, rfl⟩ <;> exact ⟨rfl, rfl, rfl, rfl, rfl, rfl⟩
  | cfgWrite v =>
    injection h with h
    exact h ▸ ⟨rfl, rfl, rfl, rfl, rfl, rfl⟩
  | reset => contradiction
  | _ =>
    obtain ⟨r, w, hf⟩ := exec_intakeFrame h (by simp) (by simp) hreset (by simp)
    obtain ⟨h1, h2, h3, h4, h5, h6⟩ := hf.silent he
    exact ⟨h1, h2, h3, h4, h5, h6⟩

/-- Settles O34: the frame of the intake, and the transactions outside it one by one. -/
theorem sequencingStateHasFewWriters : Obligations.SequencingStateHasFewWriters := by
  intro i s t h hreset
  refine ⟨exec_events_nil h, fun he => ?_⟩
  obtain ⟨-, hline, hawaiting, hpending, hskip, herrors⟩ := exec_seqKept h hreset he
  exact ⟨hline, hawaiting, hpending, hskip, herrors⟩

/-- Settles O35: outside PEEK, POP, RESET and CFG_WRITE the frame of the intake keeps all four. -/
theorem controlBitsHaveFewWriters : Obligations.ControlBitsHaveFewWriters := by
  intro i s t h hreset
  cases i with
  | peek => rcases execPeek_next h with ⟨-, rfl⟩ | ⟨-, r, text, -, -, rfl⟩ <;> simp
  | pop => rcases execPop_next h with ⟨-, r, -, rfl⟩ | ⟨-, rfl⟩ <;> simp
  | cfgWrite v =>
    injection h with h
    subst h
    simp
  | reset => contradiction
  | _ =>
    obtain ⟨r, w, hf, -⟩ := exec_intakeFrame h (by simp) (by simp) hreset (by simp)
    have hfault : t.popFault = s.popFault := hf.popFault
    exact ⟨hfault.trans, fun _ => ⟨hfault, hf.head⟩, fun _ => hf.cfgChecksumMandatory, fun _ _ => hf.peekValid⟩

/-! ## STATUS -/

/-- The flags of STAT0 (R38). -/
theorem State.stat0_bits (s : State) :
    s.stat0.getLsbD 8 = s.awaiting ∧ s.stat0.getLsbD 9 = s.payloadBusy ∧ s.stat0.getLsbD 10 = s.peekValid ∧
    s.stat0.getLsbD 11 = s.popFault ∧ s.stat0.getLsbD 12 = s.cfgChecksumMandatory ∧ s.stat0.getLsbD 13 = s.binMode ∧
    s.stat0.getLsbD 14 = s.comment ∧ s.stat0.getLsbD 15 = s.frameSrc := by
  unfold State.stat0
  simp only [BitVec.getLsbD_append]
  simp

/-- The three bytes of STAT0 (R38). -/
theorem State.stat0_bytes (s : State) :
    s.stat0.extractLsb' 0 8 = BitVec.ofNat 8 s.count ∧ s.stat0.extractLsb' 16 8 = s.cursor ∧
    s.stat0.extractLsb' 24 8 = s.frameLen := by
  unfold State.stat0
  simp (disch := omega) only [BitVec.extractLsb'_append_eq_of_le, BitVec.extractLsb'_append_eq_of_add_le,
    Nat.reduceSub, BitVec.extractLsb'_eq_self, and_self]

/-- The four bytes of STAT3, the highest reserved (R38). -/
theorem State.stat3_bytes (s : State) :
    s.stat3.extractLsb' 0 8 = s.skipCount ∧ s.stat3.extractLsb' 8 8 = s.consecutiveFormatErrors ∧
    s.stat3.extractLsb' 16 8 = BitVec.ofNat 8 s.head ∧ s.stat3.extractLsb' 24 8 = 0 := by
  unfold State.stat3
  simp (disch := omega) only [BitVec.extractLsb'_append_eq_of_le,
    BitVec.extractLsb'_append_eq_of_add_le, Nat.reduceSub, BitVec.extractLsb'_eq_self]
  simp

/-- Settles O9: the words are STAT0 to STAT3, whose fields the lemmas above read off. -/
theorem statusWordsByField : Obligations.StatusWordsByField := by
  intro s hcount hhead
  obtain ⟨awaiting, busy, peek, fault, mandatory, binMode, comment, src⟩ := s.stat0_bits
  obtain ⟨count, cursor, frameLen⟩ := s.stat0_bytes
  obtain ⟨skip, errors, head, zero⟩ := s.stat3_bytes
  refine ⟨s.stat0, s.stat1, s.stat2, s.stat3, rfl, ?_, awaiting, busy, peek, fault, mandatory, binMode, comment, src,
    cursor, frameLen, rfl, rfl, skip, errors, ?_, zero⟩
  · rw [count, BitVec.toNat_ofNat, Nat.mod_eq_of_lt hcount]
  · rw [head, BitVec.toNat_ofNat, Nat.mod_eq_of_lt hhead]

end Sys2Proof.Machine
end

section
/-! # The invariant at reset -/

namespace Sys2Proof.Machine

/-- Settles O58: the queue and acc are empty, and every register holds its reset value (R371). -/
theorem resetStateIsGood : Obligations.ResetStateIsGood where
  params_ok := by decide
  acc_wf := rfl
  acc_within := by simp [State.reset]
  slots_length := rfl
  count_le := Nat.zero_le _
  head_lt := by decide
  busy_iff := rfl
  text_youngest := by simp [State.queue, State.reset]
  awaiting_ok := by simp [State.reset]
  synced_ok _ := rfl
  errors_lt := by decide
  frame_ok h := absurd rfl h
  binary_ok := by simp [State.reset]
  header_ok := by simp [State.reset]
  ascii_ok _ := Nat.zero_le _
  peek_ok := by simp [State.reset]
  queue_clean := by simp [State.queue, State.reset]
  text_within := by simp [State.queue, State.reset]
  work_idle := rfl
  port_ok := by simp [State.reset]

end Sys2Proof.Machine
end

section
/-! # The queue's slots as a list, and the lengths of frames -/

namespace Sys2Proof.Machine

/-! ## The queue -/

/-- A push appends to the queue (R69, R290). -/
theorem State.queue_push {s t : State} {r : Record} (h : s.push r = .ok t) :
    t.queue = s.queue ++ [r] := by
  obtain ⟨hc, ht, rfl⟩ := State.push_cases h
  have hold : ∀ k < s.count, (s.slots.set s.tail r).getD ((s.head + k) % s.params.qcap) {} =
      s.slots.getD ((s.head + k) % s.params.qcap) {} := by
    intro k hk
    have hne : s.tail ≠ (s.head + k) % s.params.qcap := by
      intro he
      have hmod : s.count ≡ k [MOD s.params.qcap] := Nat.ModEq.add_left_cancel' s.head he
      rw [Nat.ModEq, Nat.mod_eq_of_lt hc, Nat.mod_eq_of_lt (by omega)] at hmod
      omega
    simp [List.getD_eq_getElem?_getD, List.getElem?_set_ne hne]
  have hnew : (s.slots.set s.tail r).getD ((s.head + s.count) % s.params.qcap) {} = r := by
    simp only [List.getD_eq_getElem?_getD]
    change ((s.slots.set s.tail r)[s.tail]?).getD {} = r
    simp [List.getElem?_set_self ht]
  simp only [State.queue, List.range_succ, List.map_append, List.map_cons, List.map_nil, hnew]
  congr 1
  exact List.map_congr_left fun k hk => hold k (List.mem_range.1 hk)

/-- The oldest record is the one at `head`, and the others are the queue that POP leaves (R69, R293). -/
theorem State.queue_eq_cons {s : State} {r : Record} (hr : s.slots[s.head]? = some r) (hc : 0 < s.count)
    (hh : s.head < s.params.qcap) :
    s.queue = r :: ({ s with head := (s.head + 1) % s.params.qcap, count := s.count - 1 } : State).queue := by
  obtain ⟨n, hn⟩ := Nat.exists_eq_succ_of_ne_zero (Nat.pos_iff_ne_zero.1 hc)
  simp only [State.queue, hn, Nat.succ_eq_add_one, Nat.add_sub_cancel, List.range_succ_eq_map, List.map_cons,
    List.map_map, Nat.add_zero, Nat.mod_eq_of_lt hh, List.getD_eq_getElem?_getD, hr, Option.getD_some]
  congr 1
  refine List.map_congr_left fun k _ => ?_
  simp only [Function.comp, Nat.mod_add_mod]
  congr 3
  omega

/-! ## Frame lengths -/

theorem headerByte_append {h : List Byte} {i : Nat} (hi : i < h.length) (l : List Byte) :
    headerByte (h ++ l) i = headerByte h i := by
  simp [headerByte, List.getD_eq_getElem?_getD, List.getElem?_append_left hi]

theorem headerBf1_append {h : List Byte} (h2 : 2 ≤ h.length) (l : List Byte) : headerBf1 (h ++ l) = headerBf1 h := by
  rw [headerBf1, headerByte_append (by omega), headerByte_append (by omega), headerBf1]

theorem headerBf2_append {h : List Byte} (h4 : 4 ≤ h.length) (l : List Byte) : headerBf2 (h ++ l) = headerBf2 h := by
  rw [headerBf2, headerByte_append (by omega), headerByte_append (by omega), headerBf2]

/-- Two bytes decide how many header bytes a frame needs (R120). -/
theorem fsNeed_append {h : List Byte} (h2 : 2 ≤ h.length) (l : List Byte) : fsNeed (h ++ l) = fsNeed h := by
  rw [fsNeed_eq, fsNeed_eq, headerBf1_append h2]

/-- A frame has a length only when its header is there (R122). -/
theorem fsNeed_le_of_fsSize {h : List Byte} {n : Nat} (hn : fsSize h = some n) :
    2 ≤ h.length ∧ fsNeed h ≤ h.length := by
  rw [fsNeed_eq]
  by_cases h2 : h.length < 2
  · simp [fsSize, h2] at hn
  refine ⟨by omega, ?_⟩
  cases c12 : (headerBf1 h).getLsbD 12 with
  | false =>
    simp only [cond_false]
    omega
  | true =>
    by_cases h4 : h.length < 4
    · simp [fsSize, h2, c12, h4] at hn
    cases c15 : (headerBf1 h).getLsbD 15 with
    | false =>
      simp only [cond_true, cond_false]
      omega
    | true =>
      by_cases h5 : h.length < 5
      · simp [fsSize, h2, c12, h4, c15, h5] at hn
      simp only [cond_true]
      omega

theorem sizeIf_le (b : Bool) (n : Nat) : sizeIf b n ≤ n := by
  cases b <;> simp [sizeIf]

theorem commonSize_bounds (bf1 : Half) : 4 ≤ commonSize bf1 ∧ commonSize bf1 ≤ 35 := by
  have := sizeIf_le (bf1.getLsbD 0) 2
  have := sizeIf_le (bf1.getLsbD 3) 4
  have := sizeIf_le (bf1.getLsbD 4) 4
  have := sizeIf_le (bf1.getLsbD 5) 4
  have := sizeIf_le (bf1.getLsbD 6) 4
  have := sizeIf_le (bf1.getLsbD 8) 4
  have := sizeIf_le (bf1.getLsbD 9) 1
  have := sizeIf_le (bf1.getLsbD 10) 4
  have := sizeIf_le (bf1.getLsbD 11) 4
  unfold commonSize
  omega

/-- A frame is longer than its header, and no longer than 133 bytes (R123, R124). -/
theorem fsSize_bounds {h : List Byte} {n : Nat} (hn : fsSize h = some n) : fsNeed h < n ∧ n ≤ 133 := by
  obtain ⟨h2, hneed⟩ := fsNeed_le_of_fsSize hn
  rw [fsSize_eq h2 hneed] at hn
  injection hn with hn
  have hc := commonSize_bounds (headerBf1 h)
  rw [fsNeed_eq]
  cases c12 : (headerBf1 h).getLsbD 12 with
  | false =>
    have := sizeIf_le ((headerBf1 h).getLsbD 1) 1
    have := sizeIf_le ((headerBf1 h).getLsbD 2) 1
    have := sizeIf_le ((headerBf1 h).getLsbD 15) Config.textV1
    simp only [c12, cond_false, Config.textV1] at *
    omega
  | true =>
    have := sizeIf_le ((headerBf1 h).getLsbD 1) 2
    have := sizeIf_le ((headerBf1 h).getLsbD 2) 2
    have := sizeIf_le ((headerBf2 h).getLsbD 0) 4
    have := sizeIf_le ((headerBf2 h).getLsbD 1) 4
    have := sizeIf_le ((headerBf2 h).getLsbD 2) 4
    cases c15 : (headerBf1 h).getLsbD 15 <;>
      simp only [c12, c15, cond_true, cond_false, sizeIf, if_true, Bool.false_eq_true, if_false, Config.textCap] at * <;>
      omega

/-- The bytes past its header do not change a frame's length (R121). -/
theorem fsSize_append {h : List Byte} {n : Nat} (hn : fsSize h = some n) (l : List Byte) :
    fsSize (h ++ l) = some n := by
  obtain ⟨h2, hneed⟩ := fsNeed_le_of_fsSize hn
  have hlen : (h ++ l).length = h.length + l.length := List.length_append
  rw [← hn, fsSize_eq h2 hneed, fsSize_eq (by omega) (by rw [fsNeed_append h2]; omega), headerBf1_append h2]
  rw [fsNeed_eq] at hneed
  cases c12 : (headerBf1 h).getLsbD 12 with
  | false => rfl
  | true =>
    cases c15 : (headerBf1 h).getLsbD 15 <;> simp only [c12, c15, cond_true, cond_false] at hneed
    · rw [headerBf2_append hneed]
      rfl
    · rw [headerBf2_append (by omega), headerByte_append (by omega)]

end Sys2Proof.Machine
end

section
/-! # What a decode hands to the queue: exactly the fields of the masks, and a text inside acc -/

namespace Sys2Proof.Machine

/-- What the invariant asks of a queued record (R41, R42, R64), its text within the `size` bytes of acc. -/
structure Record.Queueable (r : Record) (size : Nat) : Prop where
  clean : r.rawFormatError = false
  fields : r.matchesMasks = true
  within : r.textWithin size

/-! ## Masks -/

/-- A bit written with the value it has leaves the mask. -/
theorem putBit_getLsbD_self (v : Half) (i : Nat) : putBit v i (v.getLsbD i) = v := by
  refine BitVec.eq_of_getLsbD_eq fun k hk => ?_
  by_cases hki : k = i
  · subst hki
    cases hb : v.getLsbD k <;> simp [putBit, hb]
  · cases hb : v.getLsbD i <;> simp [putBit, hk] <;> omega

theorem Work.present1_eq {w : Work} (h : w.cmd.pm1 = w.bf1) (i : Nat) : w.present1 i = w := by
  have hpm : putBit w.cmd.pm1 i (w.bf1.getLsbD i) = w.cmd.pm1 := h ▸ putBit_getLsbD_self _ i
  rw [Work.present1, copyBit, hpm]

theorem Work.present2_eq {w : Work} (h : w.cmd.pm2 = w.bf2) (i : Nat) : w.present2 i = w := by
  have hpm : putBit w.cmd.pm2 i (w.bf2.getLsbD i) = w.cmd.pm2 := h ▸ putBit_getLsbD_self _ i
  rw [Work.present2, copyBit, hpm]

theorem rowBf2Rsv_eq {w : Work} (h : w.cmd.pm2 = w.bf2) : rowBf2Rsv w = w := by
  have hpm : (w.cmd.pm2 &&& 0x0007) ||| (w.bf2 &&& 0xFFF8) = w.cmd.pm2 := by
    rw [← h, ← BitVec.and_or_distrib_left]
    exact BitVec.and_allOnes
  rw [rowBf2Rsv, hpm]

/-! ## The rows of a binary decode -/

/-- What a reader of a field at `off` gives: the field, and `off` moved past at most `n` bytes. -/
def ReadsField {α : Type} (w : Work) (n : Nat) (put : Record → α → Record) (x : Except Fault Work) : Prop :=
  ∀ u, x = .ok u → ∃ v, ∃ k ≤ n, u = { w with off := w.off + k, cmd := put w.cmd v }

theorem wordField_reads {size : Nat} {m : List Host.Cell} {put : Record → Word → Record} (w : Work) :
    ReadsField w 4 put (wordField size m w put) := by
  intro u h
  unfold wordField at h
  split at h
  next v _ =>
    injection h with h
    exact ⟨v, 4, by omega, h.symm⟩
  · cases h

theorem halfField_reads {size : Nat} {m : List Host.Cell} {put : Record → Half → Record} (w : Work) :
    ReadsField w 2 put (halfField size m w put) := by
  intro u h
  unfold halfField at h
  split at h
  next v _ =>
    injection h with h
    exact ⟨v, 2, by omega, h.symm⟩
  · cases h

theorem byteField_reads {size : Nat} {m : List Host.Cell} {put : Record → Byte → Record} (w : Work) :
    ReadsField w 1 put (byteField size m w put) := by
  intro u h
  unfold byteField at h
  split at h
  next v _ =>
    injection h with h
    exact ⟨v, 1, by omega, h.symm⟩
  · cases h

theorem codeField_reads {size : Nat} {m : List Host.Cell} {put : Record → Half → Record} (w : Work) :
    ReadsField w 2 put (codeField size m w put) := by
  intro u h
  unfold codeField at h
  split at h
  · exact halfField_reads w u h
  · obtain ⟨v, k, hk, hu⟩ := byteField_reads w u h
    exact ⟨v.zeroExtend 16, k, by omega, hu⟩

/-- Which of the numeric fields a record has, in wire order (R160). -/
def Record.fieldBits (r : Record) : List Bool :=
  [r.lineNumber.isSome, r.mCode.isSome, r.gCode.isSome, r.x.isSome, r.y.isSome, r.z.isSome, r.e.isSome, r.f.isSome,
   r.toolIndex.isSome, r.sValue.isSome, r.pValue.isSome, r.i.isSome, r.j.isSome, r.r.isSome]

/-- A binary decode in progress: the header is read and copied into the masks, `off` is at most `n`, `done` says which
of the fields whose rows have run are there, the others are not, and no text is captured. -/
structure Work.Decoding (w : Work) (bf1 bf2 : Half) (n : Nat) (done : List Bool) : Prop where
  bf1_eq : w.bf1 = bf1
  bf2_eq : w.bf2 = bf2
  pm1_eq : w.cmd.pm1 = bf1
  pm2_eq : w.cmd.pm2 = bf2
  v1 : bf1.getLsbD 12 = false → bf2 = 0
  off_le : w.off ≤ n
  clean : w.cmd.rawFormatError = false
  textStart : w.cmd.textStart = none
  textLen : w.cmd.textLen = none
  fields : w.cmd.fieldBits = done ++ List.replicate (14 - done.length) false

/-- After the two header rows (R161 to R163): at most 5 bytes are read, and a V1 frame has an empty bitfield-2. -/
theorem Work.Decoding.header {size : Nat} {m : List Host.Cell} {u v : Work} (hu : rowBf1V1 size m {} = .ok u)
    (hv : rowBf1V2 size m u = .ok v) : ∃ bf1 bf2 : Half, v.Decoding bf1 bf2 5 [] := by
  unfold rowBf1V1 at hu
  unfold rowBf1V2 at hv
  cases h1 : memRead2 size m 0 with
  | error f => simp [h1] at hu
  | ok bf1 =>
    cases c12 : bf1.getLsbD 12 with
    | false =>
      simp only [h1, c12, Bool.false_eq_true, if_false] at hu hv
      injection hu with hu
      injection hv with hv
      subst hu hv
      exact ⟨bf1, 0, rfl, rfl, rfl, rfl, fun _ => rfl, by simp, rfl, rfl, rfl, rfl⟩
    | true =>
      simp only [h1, c12, if_true] at hu hv
      injection hu with hu
      subst hu
      have hv1 (bf2 : Half) (h0 : bf1.getLsbD 12 = false) : bf2 = 0 := absurd (c12.symm.trans h0) (by decide)
      cases h2 : memRead2 size m 2 with
      | error f => simp [h2] at hv
      | ok bf2 =>
        cases c15 : bf1.getLsbD 15 with
        | false =>
          simp only [h2, c15, Bool.false_eq_true, if_false] at hv
          injection hv with hv
          subst hv
          exact ⟨bf1, bf2, rfl, rfl, rfl, rfl, hv1 bf2, by simp, rfl, rfl, rfl, rfl⟩
        | true =>
          cases h3 : memRead1 size m 4 with
          | error f => simp [h2, c15, h3] at hv
          | ok tl =>
            simp only [h2, c15, if_true, h3] at hv
            injection hv with hv
            subst hv
            exact ⟨bf1, bf2, rfl, rfl, rfl, rfl, hv1 bf2, by simp, rfl, rfl, rfl, rfl⟩

/-- The record `d` is `c` with the `k`-th numeric field there. -/
structure Record.Gains (c d : Record) (k : Nat) : Prop where
  pm1 : d.pm1 = c.pm1
  pm2 : d.pm2 = c.pm2
  clean : d.rawFormatError = c.rawFormatError
  textStart : d.textStart = c.textStart
  textLen : d.textLen = c.textLen
  fields : d.fieldBits = c.fieldBits.set k true

/-- A field read when its bit is set is there afterwards exactly when the bit is set. -/
theorem Work.Decoding.field {α : Type} {w u : Work} {bf1 bf2 : Half} {n b k : Nat} {done : List Bool} {present : Bool}
    {put : Record → α → Record} {read : Except Fault Work} (hw : w.Decoding bf1 bf2 n done)
    (hread : ReadsField w b put read) (h : fieldIf present w read = .ok u)
    (hput : ∀ c v, Record.Gains c (put c v) k) (hk : done.length = k) (hlt : k < 14) :
    u.Decoding bf1 bf2 (n + b) (done ++ [present]) := by
  subst hk
  have hrest : List.replicate (14 - done.length) false
      = false :: List.replicate (14 - (done ++ [present]).length) false := by
    rw [List.length_append, List.length_singleton, ← List.replicate_succ]
    congr 1
    omega
  cases present with
  | false =>
    injection h with h
    subst h
    exact { hw with
      off_le := hw.off_le.trans (Nat.le_add_right n b)
      fields := by rw [hw.fields, hrest, List.append_assoc, List.singleton_append] }
  | true =>
    obtain ⟨v, j, hj, rfl⟩ := hread u h
    obtain ⟨hpm1, hpm2, hclean, hstart, hlen, hfields⟩ := hput w.cmd v
    exact {
      bf1_eq := hw.bf1_eq, bf2_eq := hw.bf2_eq, v1 := hw.v1
      pm1_eq := hpm1.trans hw.pm1_eq, pm2_eq := hpm2.trans hw.pm2_eq
      off_le := Nat.add_le_add hw.off_le hj
      clean := hclean.trans hw.clean, textStart := hstart.trans hw.textStart, textLen := hlen.trans hw.textLen
      fields := by
        rw [hfields, hw.fields, hrest, List.set_append_right _ _ (Nat.le_refl _), Nat.sub_self, List.set_cons_zero,
          List.append_assoc, List.singleton_append] }

/-- A row of bitfield-1 (R164 to R174), by its bit `i` and the place `k` of its field. -/
theorem Work.Decoding.row1 {α : Type} {w u : Work} {bf1 bf2 : Half} {n b : Nat} {done : List Bool} (i k : Nat)
    {put : Record → α → Record} {read : Work → Except Fault Work} (hw : w.Decoding bf1 bf2 n done)
    (hread : ∀ w, ReadsField w b put (read w))
    (h : fieldIf (w.bf1.getLsbD i) (w.present1 i) (read (w.present1 i)) = .ok u)
    (hput : ∀ c v, Record.Gains c (put c v) k) (hk : done.length = k) (hlt : k < 14) :
    u.Decoding bf1 bf2 (n + b) (done ++ [bf1.getLsbD i]) := by
  rw [Work.present1_eq (hw.pm1_eq.trans hw.bf1_eq.symm), hw.bf1_eq] at h
  exact hw.field (hread w) h hput hk hlt

/-- A row of bitfield-2, which is 0 in a V1 frame (R175 to R177), by its bit `i` and the place `k` of its field. -/
theorem Work.Decoding.row2 {α : Type} {w u : Work} {bf1 bf2 : Half} {n b : Nat} {done : List Bool} (i k : Nat)
    {put : Record → α → Record} {read : Work → Except Fault Work} (hw : w.Decoding bf1 bf2 n done)
    (hread : ∀ w, ReadsField w b put (read w))
    (h : fieldIf (w.v2 && w.bf2.getLsbD i) (w.present2 i) (read (w.present2 i)) = .ok u)
    (hput : ∀ c v, Record.Gains c (put c v) k) (hk : done.length = k) (hlt : k < 14) :
    u.Decoding bf1 bf2 (n + b) (done ++ [bf2.getLsbD i]) := by
  have hbit : (w.v2 && w.bf2.getLsbD i) = bf2.getLsbD i := by
    rw [Work.v2, hw.bf1_eq, hw.bf2_eq]
    cases h12 : bf1.getLsbD 12 with
    | false => simp [hw.v1 h12]
    | true => rw [Bool.true_and]
  rw [Work.present2_eq (hw.pm2_eq.trans hw.bf2_eq.symm), hbit] at h
  exact hw.field (hread w) h hput hk hlt

theorem rowBf1TextV1_eq {w : Work} (hpm : w.cmd.pm1 = w.bf1) : rowBf1TextV1 w =
    bif !w.bf1.getLsbD 12 && w.bf1.getLsbD 15 then
      { w with
        off := w.off + 16
        cmd := { w.cmd with textStart := some (BitVec.ofNat 8 w.off), textLen := some 16 } }
    else w := by
  rw [rowBf1TextV1, Work.present1_eq hpm, Bool.cond_eq_ite]
  rfl

theorem rowBf1TextV2_eq {w : Work} (hpm : w.cmd.pm1 = w.bf1) : rowBf1TextV2 w =
    bif w.bf1.getLsbD 12 && w.bf1.getLsbD 15 then
      { w with
        off := w.off + textV2Len w.tl
        cmd := { w.cmd with
          textStart := some (BitVec.ofNat 8 w.off), textLen := some (BitVec.ofNat 8 (textV2Len w.tl)) } }
    else w := by
  rw [rowBf1TextV2, Work.present1_eq hpm, Bool.cond_eq_ite]
  rfl

/-- What the two text rows give (R178, R179): a slice of at most 79 bytes from `off` on, when the frame has a text. -/
theorem textRows_ok {w : Work} (hpm : w.cmd.pm1 = w.bf1) (hstart : w.cmd.textStart = none)
    (hlen : w.cmd.textLen = none) :
    ∃ start len : Option Byte, start.isSome = w.bf1.getLsbD 15 ∧ len.isSome = w.bf1.getLsbD 15 ∧
      (start.getD 0).toNat + (len.getD 0).toNat ≤ w.off + 79 ∧
      ∃ off, rowBf1TextV2 (rowBf1TextV1 w) =
        { w with off, cmd := { w.cmd with textStart := start, textLen := len } } := by
  have hmod (n : Nat) : (BitVec.ofNat 8 n).toNat ≤ n := Nat.mod_le _ _
  have hoff := hmod w.off
  cases h15 : w.bf1.getLsbD 15 with
  | false =>
    refine ⟨w.cmd.textStart, w.cmd.textLen, by rw [hstart]; rfl, by rw [hlen]; rfl, ?_, w.off, ?_⟩
    · rw [hstart, hlen]
      exact Nat.zero_le _
    · rw [rowBf1TextV1_eq hpm, h15, Bool.and_false, cond_false, rowBf1TextV2_eq hpm, h15, Bool.and_false, cond_false]
  | true =>
    cases h12 : w.bf1.getLsbD 12 with
    | false =>
      refine ⟨some (BitVec.ofNat 8 w.off), some 16, rfl, rfl, ?_, w.off + 16, ?_⟩
      · change (BitVec.ofNat 8 w.off).toNat + 16 ≤ _
        omega
      · rw [rowBf1TextV1_eq hpm, h12, h15, Bool.not_false, Bool.true_and, cond_true, rowBf1TextV2_eq (by exact hpm)]
        simp only [h12, Bool.false_and, cond_false]
    | true =>
      refine ⟨some (BitVec.ofNat 8 w.off), some (BitVec.ofNat 8 (textV2Len w.tl)), rfl, rfl, ?_,
        w.off + textV2Len w.tl, ?_⟩
      · have hlen := hmod (textV2Len w.tl)
        have hcap : textV2Len w.tl ≤ 79 := Nat.min_le_right ..
        simp only [Option.getD_some]
        omega
      · rw [rowBf1TextV1_eq hpm, h12, Bool.not_true, Bool.false_and, cond_false, rowBf1TextV2_eq hpm, h12, h15,
          Bool.and_self, cond_true]

/-- The rows that copy the bits without a field change nothing more (R181). -/
theorem maskRows_eq {w : Work} (h1 : w.cmd.pm1 = w.bf1) (h2 : w.cmd.pm2 = w.bf2) :
    rowBf2Rsv (rowBf1Internal (rowBf1Ext (rowBf1Mark w))) = w := by
  rw [rowBf1Mark, Work.present1_eq h1, rowBf1Ext, Work.present1_eq h1, rowBf1Internal, Work.present1_eq h1,
    rowBf2Rsv_eq h2]

/-- A binary decode reads exactly the fields its masks name (R160), and its text ends within 133 bytes: before it come
at most 5 header bytes and 47 bytes of fields. -/
theorem binaryDecode_queueable {size : Nat} {m : List Host.Cell} {w : Work} (hsize : 133 ≤ size)
    (h : binaryDecode size m = .ok w) : w.cmd.Queueable size := by
  simp only [binaryDecode, binaryRows, runRows_cons, Except.ok.injEq, exists_eq_left'] at h
  obtain ⟨_, hV1, _, hV2, _, hN, _, hM, _, hG, _, hX, _, hY, _, hZ, _, hE, _, hF, _, hT, _, hS, _, hP, _, hI, _, hJ, u,
    hR, h⟩ := h
  obtain ⟨bf1, bf2, d⟩ := Work.Decoding.header hV1 hV2
  replace d := d.row1 0 0 halfField_reads hN (fun _ _ => ⟨rfl, rfl, rfl, rfl, rfl, rfl⟩) (by simp) (by decide)
  replace d := d.row1 1 1 codeField_reads hM (fun _ _ => ⟨rfl, rfl, rfl, rfl, rfl, rfl⟩) (by simp) (by decide)
  replace d := d.row1 2 2 codeField_reads hG (fun _ _ => ⟨rfl, rfl, rfl, rfl, rfl, rfl⟩) (by simp) (by decide)
  replace d := d.row1 3 3 wordField_reads hX (fun _ _ => ⟨rfl, rfl, rfl, rfl, rfl, rfl⟩) (by simp) (by decide)
  replace d := d.row1 4 4 wordField_reads hY (fun _ _ => ⟨rfl, rfl, rfl, rfl, rfl, rfl⟩) (by simp) (by decide)
  replace d := d.row1 5 5 wordField_reads hZ (fun _ _ => ⟨rfl, rfl, rfl, rfl, rfl, rfl⟩) (by simp) (by decide)
  replace d := d.row1 6 6 wordField_reads hE (fun _ _ => ⟨rfl, rfl, rfl, rfl, rfl, rfl⟩) (by simp) (by decide)
  replace d := d.row1 8 7 wordField_reads hF (fun _ _ => ⟨rfl, rfl, rfl, rfl, rfl, rfl⟩) (by simp) (by decide)
  replace d := d.row1 9 8 byteField_reads hT (fun _ _ => ⟨rfl, rfl, rfl, rfl, rfl, rfl⟩) (by simp) (by decide)
  replace d := d.row1 10 9 wordField_reads hS (fun _ _ => ⟨rfl, rfl, rfl, rfl, rfl, rfl⟩) (by simp) (by decide)
  replace d := d.row1 11 10 wordField_reads hP (fun _ _ => ⟨rfl, rfl, rfl, rfl, rfl, rfl⟩) (by simp) (by decide)
  replace d := d.row2 0 11 wordField_reads hI (fun _ _ => ⟨rfl, rfl, rfl, rfl, rfl, rfl⟩) (by simp) (by decide)
  replace d := d.row2 1 12 wordField_reads hJ (fun _ _ => ⟨rfl, rfl, rfl, rfl, rfl, rfl⟩) (by simp) (by decide)
  replace d := d.row2 2 13 wordField_reads hR (fun _ _ => ⟨rfl, rfl, rfl, rfl, rfl, rfl⟩) (by simp) (by decide)
  have hpm1 : u.cmd.pm1 = u.bf1 := d.pm1_eq.trans d.bf1_eq.symm
  obtain ⟨start, len, hstart, hlen, hspan, off, htext⟩ := textRows_ok hpm1 d.textStart d.textLen
  have hw : rowBf2Rsv (rowBf1Internal (rowBf1Ext (rowBf1Mark (rowBf1TextV2 (rowBf1TextV1 u))))) = w := by
    injection h
  rw [htext, maskRows_eq (by exact hpm1) (by exact d.pm2_eq.trans d.bf2_eq.symm)] at hw
  subst hw
  refine ⟨d.clean, ?_, fun _ => ?_⟩
  · have hfields := d.fields
    simp only [Record.fieldBits, List.nil_append, List.cons_append, List.cons.injEq] at hfields
    rw [d.bf1_eq] at hstart hlen
    simp [Record.matchesMasks, d.pm1_eq, d.pm2_eq, hfields, hstart, hlen]
  · have := d.off_le
    change (start.getD 0).toNat + (len.getD 0).toNat ≤ size
    omega

end Sys2Proof.Machine
end

section
/-! # What an ASCII decode hands to the queue -/

namespace Sys2Proof.Machine

/-- A mask has the bits it is made of. -/
theorem maskOf_getLsbD (l : List Bool) {k : Nat} (hk : k < 16) : (maskOf l).getLsbD k = l.getD k false := by
  induction l generalizing k with
  | nil => simp [maskOf]
  | cons b t ih =>
    cases k with
    | zero => cases b <;> simp [maskOf]
    | succ k =>
      have hk' := Nat.lt_of_succ_lt hk
      cases b <;> simpa [maskOf, hk, hk'] using ih hk'

theorem sealRecord_pm1 (w : Work) : (sealRecord w).cmd.pm1 = asciiPm1 (sealRecord w).cmd (sealRecord w).textMode := rfl

theorem sealRecord_pm2 (w : Work) : (sealRecord w).cmd.pm2 = asciiPm2 (sealRecord w).cmd := rfl

theorem textStartOf_le (body : List Byte) (mpos : Nat) : textStartOf body mpos ≤ body.length := Nat.sub_le ..

theorem textLength_le (body : List Byte) (code : Option Half) (start : Nat) :
    textLength body code start ≤ body.length - start := by
  unfold textLength
  split
  · exact Nat.le_refl _
  · calc ((body.drop start).takeWhile (· != chSpace)).length ≤ (body.drop start).length :=
          (List.takeWhile_sublist _).length_le
      _ = body.length - start := List.length_drop

/-- A line has a text exactly in text mode, and the text lies in the line (R210, R211). -/
theorem asciiDecode_text (c : List Byte) :
    (asciiDecode c).cmd.textStart.isSome = (asciiDecode c).textMode ∧
    (asciiDecode c).cmd.textLen.isSome = (asciiDecode c).textMode ∧
    ((asciiDecode c).cmd.textStart.getD 0).toNat + ((asciiDecode c).cmd.textLen.getD 0).toNat ≤ c.length := by
  obtain ⟨-, -, -, -, -, -, -, -, -, -, -, -, -, -, -, -, -, -, -, hnone, hsome⟩ := asciiDecode_eq c
  cases ht : (asciiDecode c).textMode with
  | false =>
    obtain ⟨hstart, hlen⟩ := hnone ht
    rw [hstart, hlen]
    exact ⟨rfl, rfl, Nat.zero_le _⟩
  | true =>
    obtain ⟨hstart, hlen⟩ := hsome ht
    rw [hstart, hlen]
    refine ⟨rfl, rfl, ?_⟩
    generalize hb : c.take ((findByte chStar c).getD c.length) = body
    have hbody : body.length ≤ c.length := hb ▸ (List.take_sublist ..).length_le
    have hmod (n : Nat) : (BitVec.ofNat 8 n).toNat ≤ n := Nat.mod_le _ _
    generalize hs : textStartOf body _ = start
    have hstart : start ≤ body.length := hs ▸ textStartOf_le ..
    generalize hl : textLength body _ start = len
    have hlen : len ≤ body.length - start := hl ▸ textLength_le ..
    have := hmod start
    have := hmod len
    simp only [Option.getD_some]
    omega

/-- An ASCII decode has exactly the fields of its masks (R212), and its text lies in the line. -/
theorem asciiDecode_queueable {c : List Byte} {size : Nat} (hc : c.length ≤ size)
    (hclean : (asciiDecode c).cmd.rawFormatError = false) : (asciiDecode c).cmd.Queueable size := by
  obtain ⟨hstart, hlen, hspan⟩ := asciiDecode_text c
  have hpm1 : (asciiDecode c).cmd.pm1 = asciiPm1 (asciiDecode c).cmd (asciiDecode c).textMode := sealRecord_pm1 _
  have hpm2 : (asciiDecode c).cmd.pm2 = asciiPm2 (asciiDecode c).cmd := sealRecord_pm2 _
  refine ⟨hclean, ?_, fun _ => hspan.trans hc⟩
  simp [-BitVec.getLsbD_eq_getElem, Record.matchesMasks, hpm1, hpm2, asciiPm1, asciiPm2, maskOf_getLsbD, hstart, hlen]

/-- A line that passes its validation has no format error (R213). -/
theorem rawFormatError_of_asciiFailure {mandatory src : Bool} {w : Work} (h : asciiFailure mandatory src w = none) :
    w.cmd.rawFormatError = false := by
  unfold asciiFailure at h
  split at h
  · cases h
  · cases hr : w.cmd.rawFormatError with
    | false => rfl
    | true => simp [hr] at h

end Sys2Proof.Machine
end

section
/-! # The invariant, part by part -/

namespace Sys2Proof.Machine

/-! ## The parts -/

/-- The part of the invariant that speaks of the queue (R33 to R35, R41, R42, R43 items 1, 2 and 8, R64). -/
structure State.QueueGood (s : State) : Prop where
  slots_length : s.slots.length = s.params.qcap
  count_le : s.count ≤ s.params.qcap
  head_lt : s.head < s.params.qcap
  busy_iff : s.payloadBusy = s.queue.any Record.hasText
  text_youngest : ∀ r ∈ s.queue.dropLast, r.hasText = false
  peek_ok : s.peekValid = true → 1 ≤ s.count
  queueable : ∀ r ∈ s.queue, r.Queueable s.params.accLen

/-- The part of the invariant that speaks of the sequencing registers (R43 items 3 and 4). -/
structure State.SeqGood (s : State) : Prop where
  awaiting_ok : s.awaiting = true → 1 ≤ s.skipCount.toNat ∧ s.skipCount.toNat ≤ s.params.skipCount
    ∧ s.pendingResendLine = s.lastAcceptedLine + 1
  synced_ok : s.awaiting = false → s.skipCount = 0
  errors_lt : s.consecutiveFormatErrors.toNat < Config.errThreshold

/-- What holds at every point inside a transaction too: all of the invariant but how far a command has got. -/
structure State.Steady (s : State) : Prop where
  params_ok : s.params.ok = true
  acc_wf : Memory.wf s.acc = true
  acc_within : ∀ c ∈ s.acc, c.1 < s.params.accLen
  queue : s.QueueGood
  seq : s.SeqGood
  work_idle : s.work = {}
  port_ok : ∀ p ∈ s.port, p.space = .transaction ∧ p.word.toNat < 4096

/-- The part of the invariant that says how far a command has got between two transactions (R43 items 5 to 7, R266). -/
structure State.Resting (s : State) : Prop where
  frame_ok : s.frameLen ≠ 0 → s.binMode = true ∧ s.cursor.toNat < s.frameLen.toNat
    ∧ fsSize (Memory.slice s.acc 0 s.cursor.toNat) = some s.frameLen.toNat
  binary_ok : s.binMode = true → s.comment = false ∧ 1 ≤ s.cursor.toNat
  header_ok : s.binMode = true → s.frameLen = 0 →
    s.cursor.toNat = 1 ∨ s.cursor.toNat < fsNeed (Memory.slice s.acc 0 s.cursor.toNat)
  ascii_ok : s.binMode = false → s.cursor.toNat ≤ s.params.maxCmdLen

/-- The parts make up the invariant. -/
theorem State.inv_iff (s : State) : s.Inv ↔ s.Steady ∧ s.Resting where
  mp h := ⟨{ h with
      queue := { h with
        queueable := fun r hr => ⟨(h.queue_clean r hr).1, (h.queue_clean r hr).2, h.text_within r hr⟩ }
      seq := { h with } }, { h with }⟩
  mpr := fun ⟨hs, hr⟩ => { hs, hs.queue, hs.seq, hr with
    queue_clean := fun r hr => ⟨(hs.queue.queueable r hr).clean, (hs.queue.queueable r hr).fields⟩
    text_within := fun r hr => (hs.queue.queueable r hr).within }

theorem Params.ok_iff (p : Config.Params) : p.ok = true ↔ (1 ≤ p.qcap ∧ p.qcap ≤ 255) ∧
    (1 ≤ p.maxCmdLen ∧ p.maxCmdLen ≤ 255) ∧ 1 ≤ p.skipCount ∧ p.skipCount ≤ 255 := by
  simp only [Config.Params.ok, Bool.and_eq_true, decide_eq_true_eq]
  omega

/-! ## The sequencing registers -/

/-- A resend request leaves a good resend state (R238). -/
theorem State.SeqGood.resend {s : State} (hp : s.params.ok = true)
    (he : s.consecutiveFormatErrors.toNat < Config.errThreshold) : s.resend.SeqGood where
  awaiting_ok _ := by
    obtain ⟨-, -, hskip⟩ := (Params.ok_iff _).1 hp
    have hto : (BitVec.ofNat 8 s.params.skipCount).toNat = s.params.skipCount := by
      rw [BitVec.toNat_ofNat, Nat.mod_eq_of_lt (by omega)]
    rw [State.resend_skipCount, hto]
    exact ⟨hskip.1, Nat.le_refl _, rfl⟩
  synced_ok h := by cases h
  errors_lt := he

/-- Synced with a clear skip counter is good (R43 item 3). -/
theorem State.SeqGood.of_synced {s : State} (ha : s.awaiting = false) (hk : s.skipCount = 0)
    (he : s.consecutiveFormatErrors = 0) : s.SeqGood where
  awaiting_ok h := by rw [ha] at h; cases h
  synced_ok _ := hk
  errors_lt := by rw [he]; decide

theorem State.SeqGood.clearErrors {s : State} (h : s.SeqGood) : s.clearErrors.SeqGood :=
  { h with errors_lt := (by decide : (0 : Byte).toNat < Config.errThreshold) }

/-- A skip counts down, and the last one returns to Synced (R236, R237). -/
theorem State.SeqGood.skip {s : State} (h : s.SeqGood) (ha : s.awaiting = true) (r : Record) : (s.skip r).SeqGood := by
  obtain ⟨hpos, hle, hpend⟩ := h.awaiting_ok ha
  have hsub : (s.skipCount - 1).toNat = s.skipCount.toNat - 1 := by bv_omega
  refine ⟨fun hw => ?_, fun hw => ?_, h.errors_lt⟩
  · have hne : s.skipCount - 1 ≠ 0 := of_decide_eq_true hw
    refine ⟨?_, ?_, hpend⟩
    · change 1 ≤ (s.skipCount - 1).toNat
      bv_omega
    · change (s.skipCount - 1).toNat ≤ _
      exact hsub ▸ (Nat.sub_le ..).trans hle
  · exact not_not.1 (of_decide_eq_false hw)

theorem State.SeqGood.fail {s : State} (hp : s.params.ok = true) (k : ErrorKind) : (s.fail k).SeqGood := by
  rcases s.fail_cases k with ⟨hlt, h⟩ | ⟨-, h⟩ <;> rw [h]
  · exact .resend hp hlt
  · exact .of_synced rfl rfl rfl

/-! ## The queue -/

/-- A push of a queueable record into a queue without a text (R290). -/
theorem State.QueueGood.push {s t : State} {r : Record} (hq : s.QueueGood) (hb : s.payloadBusy = false)
    (hr : r.Queueable s.params.accLen) (h : s.push r = .ok t) : t.QueueGood := by
  have hqueue := State.queue_push h
  obtain ⟨hc, -, rfl⟩ := State.push_cases h
  have hnone : ∀ q ∈ s.queue, q.hasText = false := by
    have := hq.busy_iff
    rw [hb, eq_comm, List.any_eq_false] at this
    exact fun q hmem => by simpa using this q hmem
  refine ⟨?_, hc, hq.head_lt, ?_, ?_, fun _ => Nat.succ_pos _, ?_⟩
  · exact List.length_set.trans hq.slots_length
  · rw [hqueue, List.any_append, ← hq.busy_iff, List.any_cons, List.any_nil, Bool.or_false]
  · rw [hqueue, List.dropLast_concat]
    exact hnone
  · rw [hqueue]
    intro q hmem
    rcases List.mem_append.1 hmem with hold | hnew
    · exact hq.queueable q hold
    · exact List.mem_singleton.1 hnew ▸ hr

/-! ## Failure and sequencing -/

theorem State.Steady.fail {s : State} (h : s.Steady) (k : ErrorKind) : (s.fail k).Steady := by
  have hseq : (s.fail k).SeqGood := .fail h.params_ok k
  rcases s.fail_cases k with ⟨-, hf⟩ | ⟨-, hf⟩
  all_goals
    rw [hf] at hseq ⊢
    exact { h with queue := { h.queue with }, seq := hseq }

/-- An admitted command, completed and decoded, leaves all good but for how far a command has got (R230). -/
theorem State.Steady.sequence {s t : State} {r : Record} (h : s.Steady) (ha : s.admits)
    (hr : r.Queueable s.params.accLen) (ht : s.sequence r = .ok t) : t.Steady := by
  have hqc : s.clearErrors.QueueGood := { h.queue with }
  rcases sequence_cases ht with ⟨-, rfl⟩ | ⟨-, -, u, hu, rfl⟩ | ⟨-, -, -, u, hu, rfl⟩ | ⟨-, -, -, -, rfl⟩ |
    ⟨-, -, -, haw, rfl⟩
  · exact { h with queue := { h.queue with }, seq := .of_synced rfl rfl rfl }
  · have hqu : u.QueueGood := hqc.push ha.2 hr hu
    obtain ⟨-, -, rfl⟩ := push_cases hu
    exact { h with queue := { hqu with }, seq := { h.seq.clearErrors with } }
  · have hqa : (s.clearErrors.advanceTo r.line).QueueGood := { h.queue with }
    have hqu : u.QueueGood := hqa.push ha.2 hr hu
    obtain ⟨-, -, rfl⟩ := push_cases hu
    exact { h with queue := { hqu with }, seq := .of_synced rfl rfl rfl }
  · exact { h with queue := { h.queue with }, seq := .resend h.params_ok h.seq.clearErrors.errors_lt }
  · exact { h with queue := { h.queue with }, seq := h.seq.clearErrors.skip haw r }

end Sys2Proof.Machine
end

section
/-! # The invariant, byte by byte and step by step -/

namespace Sys2Proof.Machine

/-! ## ASCII lines -/

/-- Good, and no frame is in progress: between two commands, or in a line. -/
structure State.LineReady (s : State) : Prop extends s.Steady where
  binMode_eq : s.binMode = false
  frameLen_eq : s.frameLen = 0
  cursor_le : s.cursor.toNat ≤ s.params.maxCmdLen

namespace State

theorem LineReady.inv {s : State} (h : s.LineReady) : s.Inv :=
  s.inv_iff.2 ⟨h.toSteady, {
    frame_ok := fun hf => absurd h.frameLen_eq hf
    binary_ok := fun hb => absurd (h.binMode_eq.symm.trans hb) (by decide)
    header_ok := fun hb => absurd (h.binMode_eq.symm.trans hb) (by decide)
    ascii_ok := fun _ => h.cursor_le }⟩

theorem Steady.maxCmdLen_le {s : State} (h : s.Steady) : s.params.maxCmdLen ≤ 255 :=
  ((Params.ok_iff _).1 h.params_ok).2.1.2

theorem LineReady.fail {s : State} (h : s.LineReady) (k : ErrorKind) : (s.fail k).LineReady where
  toSteady := h.toSteady.fail k
  binMode_eq := by rw [fail_binMode, h.binMode_eq]
  frameLen_eq := by rw [fail_frameLen, h.frameLen_eq]
  cursor_le := by
    rw [fail_cursor, fail_params]
    exact h.cursor_le

/-- SEQ writes no intake register. -/
theorem sequence_intakeRegs {s t : State} {r : Record} (h : s.sequence r = .ok t) :
    t.binMode = s.binMode ∧ t.frameLen = s.frameLen ∧ t.cursor = s.cursor := by
  rcases sequence_cases h with ⟨-, rfl⟩ | ⟨-, -, u, hu, rfl⟩ | ⟨-, -, -, u, hu, rfl⟩ | ⟨-, -, -, -, rfl⟩ |
    ⟨-, -, -, -, rfl⟩
  · exact ⟨rfl, rfl, rfl⟩
  · obtain ⟨-, -, rfl⟩ := push_cases hu
    exact ⟨rfl, rfl, rfl⟩
  · obtain ⟨-, -, rfl⟩ := push_cases hu
    exact ⟨rfl, rfl, rfl⟩
  · exact ⟨rfl, rfl, rfl⟩
  · exact ⟨rfl, rfl, rfl⟩

theorem LineReady.sequence {s t : State} {r : Record} (h : s.LineReady) (ha : s.admits)
    (hr : r.Queueable s.params.accLen) (ht : s.sequence r = .ok t) : t.LineReady := by
  obtain ⟨hmode, hlen, hcursor⟩ := sequence_intakeRegs ht
  refine ⟨h.toSteady.sequence ha hr ht, hmode.trans h.binMode_eq, hlen.trans h.frameLen_eq, ?_⟩
  rw [hcursor, (sequence_intakeFrame ht).kept.params]
  exact h.cursor_le

theorem LineReady.completeAscii {s t : State} {n : Nat} (h : s.LineReady) (ha : s.admits)
    (ht : s.completeAscii n = .ok t) : t.LineReady := by
  obtain ⟨hn, ⟨k, -, rfl⟩ | ⟨hk, ht⟩⟩ := completeAscii_cases ht
  · exact h.fail k
  · have hc : (Memory.slice s.acc 0 n).length ≤ s.params.accLen := (Memory.slice_length ..).trans_le hn
    exact h.sequence ha (asciiDecode_queueable hc (rawFormatError_of_asciiFailure hk)) ht

theorem LineReady.endLine {s t : State} (h : s.LineReady) (ha : s.admits) (ht : s.endLine = .ok t) : t.LineReady := by
  rcases endLine_cases ht with ⟨-, rfl⟩ | ⟨-, ht⟩
  · exact h
  · have hstart : ({ s with cursor := 0 } : State).LineReady :=
      { h with queue := { h.queue with }, seq := { h.seq with }, cursor_le := Nat.zero_le _ }
    exact hstart.completeAscii ha ht

/-- Setting or clearing the comment flag leaves a line ready. -/
theorem LineReady.setComment {s : State} (h : s.LineReady) (comment : Bool) : ({ s with comment } : State).LineReady :=
  { h with queue := { h.queue with }, seq := { h.seq with } }

theorem LineReady.asciiByte {s t : State} {b : Byte} (h : s.LineReady) (ha : s.admits) (ht : s.asciiByte b = .ok t) :
    t.LineReady := by
  rcases asciiByte_cases ht with ⟨-, -, ht⟩ | ⟨-, -, rfl⟩ | ⟨-, -, ht⟩ | ⟨-, -, -, rfl⟩ | ⟨-, -, -, -, rfl⟩ |
    ⟨-, -, -, hne, ht⟩
  · exact (h.setComment false).endLine ha ht
  · exact h
  · exact h.endLine ha ht
  · exact h.setComment true
  · have hstart : ({ s with cursor := 0, comment := true } : State).LineReady :=
      { h with queue := { h.queue with }, seq := { h.seq with }, cursor_le := Nat.zero_le _ }
    exact hstart.fail _
  · obtain ⟨hlt, rfl⟩ := storeByte_cases ht
    have hle := h.cursor_le
    have hmax := h.toSteady.maxCmdLen_le
    exact { h with
      queue := { h.queue with }
      seq := { h.seq with }
      acc_wf := Memory.wf_write h.acc_wf
      acc_within := Memory.write_within hlt h.acc_within
      cursor_le := by
        change (s.cursor + 1).toNat ≤ s.params.maxCmdLen
        bv_omega }

/-! ## Binary frames -/

/-- Good, and the next byte belongs to a frame: its length is that of the header stored and not reached, or its header
is not whole. -/
structure FrameReady (s : State) : Prop extends s.Steady where
  binMode_eq : s.binMode = true
  comment_eq : s.comment = false
  known : s.frameLen ≠ 0 → s.cursor.toNat < s.frameLen.toNat ∧
    fsSize (Memory.slice s.acc 0 s.cursor.toNat) = some s.frameLen.toNat
  header : s.frameLen = 0 → s.cursor.toNat < 2 ∨ s.cursor.toNat < fsNeed (Memory.slice s.acc 0 s.cursor.toNat)

/-- Good, and a byte of a frame has just been stored: the frame may be whole. -/
structure FrameStored (s : State) : Prop extends s.Steady where
  binMode_eq : s.binMode = true
  comment_eq : s.comment = false
  cursor_pos : 1 ≤ s.cursor.toNat
  known : s.frameLen ≠ 0 → s.cursor.toNat ≤ s.frameLen.toNat ∧
    fsSize (Memory.slice s.acc 0 s.cursor.toNat) = some s.frameLen.toNat
  header : s.frameLen = 0 → s.cursor.toNat = 1 ∨ s.cursor.toNat < fsNeed (Memory.slice s.acc 0 s.cursor.toNat)

theorem fsNeed_bounds (h : List Byte) : 2 ≤ fsNeed h ∧ fsNeed h ≤ 5 := by
  rw [fsNeed_eq]
  cases (headerBf1 h).getLsbD 12 <;> cases (headerBf1 h).getLsbD 15 <;> decide

/-- A frame in progress has fewer than 133 bytes (R124). -/
theorem FrameReady.cursor_lt {s : State} (h : s.FrameReady) : s.cursor.toNat < 133 := by
  by_cases hf : s.frameLen = 0
  · have := (fsNeed_bounds (Memory.slice s.acc 0 s.cursor.toNat)).2
    rcases h.header hf with hc | hc <;> omega
  · obtain ⟨hlt, hsize⟩ := h.known hf
    exact hlt.trans_le (fsSize_bounds hsize).2

/-- With the length known, or its header not whole, nothing is learnt (R266). -/
theorem learnSize_eq_self {s : State}
    (h : s.frameLen ≠ 0 ∨ s.cursor.toNat < 2 ∨ s.cursor.toNat ≠ fsNeed (Memory.slice s.acc 0 s.cursor.toNat)) :
    s.learnSize = s := by
  unfold learnSize
  rw [if_neg]
  rintro ⟨hf, h2, hn⟩
  rcases h with h | h | h
  · exact h hf
  · omega
  · exact h hn

/-- With its header just whole, the frame's length is learnt (R266). -/
theorem learnSize_eq {s : State} {n : Nat} (hf : s.frameLen = 0) (h2 : 2 ≤ s.cursor.toNat)
    (hn : s.cursor.toNat = fsNeed (Memory.slice s.acc 0 s.cursor.toNat))
    (hs : fsSize (Memory.slice s.acc 0 s.cursor.toNat) = some n) :
    s.learnSize = { s with frameLen := BitVec.ofNat 8 n } := by
  unfold learnSize
  rw [if_pos ⟨hf, h2, hn⟩, hs]

/-- A byte stored in a frame, and what its header then tells (R265, R266). -/
theorem FrameReady.stored {s u : State} {b : Byte} (h : s.FrameReady) (hu : s.storeByte b = .ok u) :
    u.learnSize.FrameStored := by
  obtain ⟨hlt, rfl⟩ := storeByte_cases hu
  generalize hue : ({ s with acc := Memory.write s.acc s.cursor.toNat b, cursor := s.cursor + 1 } : State) = u
  have hc := h.cursor_lt
  have hcursor : u.cursor.toNat = s.cursor.toNat + 1 := by
    subst hue
    change (s.cursor + 1).toNat = _
    bv_omega
  have hlen : u.frameLen = s.frameLen := hue ▸ rfl
  have hslice : Memory.slice u.acc 0 u.cursor.toNat = Memory.slice s.acc 0 s.cursor.toNat ++ [b] := by
    rw [hcursor, ← hue]
    exact Memory.slice_write_end h.acc_wf ..
  have hsteady : u.Steady := hue ▸ { h with
    queue := { h.queue with }
    seq := { h.seq with }
    acc_wf := Memory.wf_write h.acc_wf
    acc_within := Memory.write_within hlt h.acc_within }
  have hmode : u.binMode = true := hue ▸ h.binMode_eq
  have hcomment : u.comment = false := hue ▸ h.comment_eq
  by_cases hf : s.frameLen = 0
  · by_cases hn : 2 ≤ u.cursor.toNat ∧ u.cursor.toNat = fsNeed (Memory.slice u.acc 0 u.cursor.toNat)
    · obtain ⟨n, hs⟩ : ∃ n, fsSize (Memory.slice u.acc 0 u.cursor.toNat) = some n :=
        ⟨_, fsSize_eq (by simpa using hn.1) (by simpa using hn.2.ge)⟩
      obtain ⟨hlow, hhigh⟩ := fsSize_bounds hs
      have hto : (BitVec.ofNat 8 n).toNat = n := by rw [BitVec.toNat_ofNat, Nat.mod_eq_of_lt (by omega)]
      rw [learnSize_eq (hlen.trans hf) hn.1 hn.2 hs]
      refine ⟨{ hsteady with queue := { hsteady.queue with }, seq := { hsteady.seq with } }, hmode, hcomment,
        Nat.le_of_succ_le hn.1, fun _ => ?_, fun h0 => ?_⟩
      · simp only [hto]
        exact ⟨by omega, hs⟩
      · have : n = 0 := hto.symm.trans (congrArg BitVec.toNat h0)
        omega
    · rw [learnSize_eq_self (by omega)]
      refine ⟨hsteady, hmode, hcomment, by omega, fun h0 => absurd (hlen.trans hf) h0, fun _ => ?_⟩
      have hneed := (fsNeed_bounds (Memory.slice u.acc 0 u.cursor.toNat)).1
      rcases Nat.lt_or_ge s.cursor.toNat 2 with hfew | hmore
      · omega
      · have hold := (h.header hf).resolve_left (by omega)
        rw [hslice, fsNeed_append (by simpa using hmore)] at hn ⊢
        omega
  · obtain ⟨hlow, hs⟩ := h.known hf
    rw [learnSize_eq_self (.inl (hlen ▸ hf))]
    refine ⟨hsteady, hmode, hcomment, by omega, fun _ => ?_, fun h0 => absurd (hlen.symm.trans h0) hf⟩
    rw [hslice, hlen]
    exact ⟨by omega, fsSize_append hs _⟩

/-- A frame whose last byte is not there yet rests. -/
theorem FrameStored.inv {s : State} (h : s.FrameStored) (hw : ¬ (s.frameLen ≠ 0 ∧ s.cursor = s.frameLen)) : s.Inv :=
  s.inv_iff.2 ⟨h.toSteady, {
    frame_ok := fun hf => by
      obtain ⟨hle, hs⟩ := h.known hf
      have hne : s.cursor.toNat ≠ s.frameLen.toNat := fun he => hw ⟨hf, BitVec.eq_of_toNat_eq he⟩
      exact ⟨h.binMode_eq, by omega, hs⟩
    binary_ok := fun _ => ⟨h.comment_eq, h.cursor_pos⟩
    header_ok := fun _ => h.header
    ascii_ok := fun hb => absurd (h.binMode_eq.symm.trans hb) (by decide) }⟩

theorem Steady.leaveFrame {s : State} (h : s.Steady) : s.leaveFrame.LineReady :=
  { h with
    queue := { h.queue with }, seq := { h.seq with }
    binMode_eq := rfl, frameLen_eq := rfl, cursor_le := Nat.zero_le _ }

/-- A whole frame leaves the block between two commands (R267). -/
theorem Steady.completeBinary {s t : State} {l : Nat} (h : s.Steady) (ha : s.admits)
    (ht : s.completeBinary l = .ok t) : t.LineReady := by
  obtain ⟨hl, hle, ⟨-, rfl⟩ | ⟨-, w, hw, ht⟩⟩ := completeBinary_cases ht
  · exact h.leaveFrame.fail _
  · have hr : w.cmd.Queueable s.params.accLen := binaryDecode_queueable (maxFrame_le_accLen _) hw
    rcases s.leaveFrame.terminateText_cases w l with hx | hx <;> rw [hx] at ht
    · exact h.leaveFrame.sequence ha hr ht
    · have hready := h.leaveFrame
      have hlt : l - 2 < s.params.accLen := by omega
      have hstore : ({ s.leaveFrame with acc := Memory.write s.acc (l - 2) 0 } : State).LineReady :=
        { hready with
          queue := { hready.queue with }
          seq := { hready.seq with }
          acc_wf := Memory.wf_write h.acc_wf
          acc_within := Memory.write_within hlt h.acc_within }
      exact hstore.sequence ha hr ht

theorem FrameReady.binaryByte {s t : State} {b : Byte} (h : s.FrameReady) (ha : s.admits)
    (ht : s.binaryByte b = .ok t) : t.Inv := by
  obtain ⟨u, hu, hc⟩ := binaryByte_cases ht
  have hstored := h.stored hu
  have hadmits : u.learnSize.admits := by
    obtain ⟨-, rfl⟩ := storeByte_cases hu
    rcases learnSize_cases _ with ⟨n, -, -, -, -, hl⟩ | hl <;> rw [hl] <;> exact ha
  rcases hc with ⟨-, -, hc⟩ | ⟨hw, rfl⟩
  · exact (hstored.toSteady.completeBinary hadmits hc).inv
  · exact hstored.inv hw

/-! ## The intake -/

/-- A byte that finds a frame in progress, or starts one, belongs to it (R263). -/
theorem frameReady_classifyFirst {s : State} {b : Byte} {src : Bool} (hs : s.Inv)
    (hm : (s.classifyFirst b src).binMode = true) : (s.classifyFirst b src).FrameReady := by
  obtain ⟨h, hr⟩ := s.inv_iff.1 hs
  rcases s.classifyFirst_cases b src with ⟨hc, hcomment, he⟩ | ⟨-, he⟩ <;> rw [he] at hm ⊢
  · exact { h with
      queue := { h.queue with }, seq := { h.seq with }
      binMode_eq := hm, comment_eq := hcomment, known := fun hf => absurd rfl hf
      header := fun _ => .inl (by rw [classify_cursor, hc]; decide) }
  · exact { h with
      binMode_eq := hm, comment_eq := (hr.binary_ok hm).1, known := fun hf => (hr.frame_ok hf).2
      header := fun hf => (hr.header_ok hm hf).imp_left (by omega) }

/-- A byte outside a frame belongs to a line (R263). -/
theorem lineReady_classifyFirst {s : State} {b : Byte} {src : Bool} (hs : s.Inv)
    (hm : (s.classifyFirst b src).binMode = false) : (s.classifyFirst b src).LineReady := by
  obtain ⟨h, hr⟩ := s.inv_iff.1 hs
  rcases s.classifyFirst_cases b src with ⟨hc, -, he⟩ | ⟨-, he⟩ <;> rw [he] at hm ⊢
  · exact { h with
      queue := { h.queue with }, seq := { h.seq with }
      binMode_eq := hm, frameLen_eq := rfl
      cursor_le := by
        rw [classify_cursor, hc]
        exact Nat.zero_le _ }
  · exact { h with
      binMode_eq := hm, cursor_le := hr.ascii_ok hm
      frameLen_eq := by_contra fun hf => absurd ((hr.frame_ok hf).1.symm.trans hm) (by decide) }

theorem Inv.intake {s t : State} {b : Byte} {src : Bool} (hs : s.Inv) (ha : s.admits)
    (ht : s.intake b src = .ok t) : t.Inv := by
  have ha' : (s.classifyFirst b src).admits := by
    rcases s.classifyFirst_cases b src with ⟨-, -, he⟩ | ⟨-, he⟩ <;> rw [he] <;> exact ha
  rcases intake_cases ht with ⟨hm, ht⟩ | ⟨hm, ht⟩
  · exact (frameReady_classifyFirst hs hm).binaryByte ha' ht
  · exact ((lineReady_classifyFirst hs hm).asciiByte ha' ht).inv

/-! ## The transactions -/

/-- A word taken off the port and a response given leave a good state good. -/
theorem Inv.taken {s : State} (h : s.Inv) (r : Response) : (s.consume.respond r).Inv :=
  { h with port_ok := fun p hp => h.port_ok p (List.mem_of_mem_tail hp) }

theorem Inv.byte {s t : State} {b : Byte} {src : Bool} (h : s.Inv) (ht : execByte b src s = .next t) : t.Inv := by
  rcases execByte_next ht with ⟨-, rfl⟩ | ⟨-, -, rfl⟩ | ⟨hc, hb, ht⟩
  · exact h.taken _
  · exact h.taken _
  · exact (h.taken .accepted).intake ⟨hc, hb⟩ ht

theorem Inv.peek {s t : State} (h : s.Inv) (ht : execPeek s = .next t) : t.Inv := by
  rcases execPeek_next ht with ⟨-, rfl⟩ | ⟨hc, r, text, -, -, rfl⟩
  · exact h.taken _
  · exact { h.taken (.record r.reported text) with peek_ok := fun _ => Nat.pos_iff_ne_zero.2 hc }

/-- Once the only record that may have text is the youngest, the oldest has text only when it is alone. -/
theorem any_hasText_tail {r : Record} {q : List Record} (h : ∀ p ∈ (r :: q).dropLast, p.hasText = false) :
    q.any Record.hasText = ((r :: q).any Record.hasText && !r.hasText) := by
  cases q with
  | nil => cases hr : r.hasText <;> simp [hr]
  | cons p q =>
    have hr : r.hasText = false := h r (by simp)
    simp [hr]

theorem mem_dropLast_cons {r p : Record} {q : List Record} (h : p ∈ q.dropLast) : p ∈ (r :: q).dropLast := by
  cases q with
  | nil => cases h
  | cons a q => exact List.mem_cons_of_mem _ h

/-- POP leaves the rest of the queue (R293). -/
theorem Inv.pop {s t : State} (h : s.Inv) (ht : execPop s = .next t) : t.Inv := by
  rcases execPop_next ht with ⟨hp, r, hr, rfl⟩ | ⟨-, rfl⟩
  · have hcons := queue_eq_cons hr (h.peek_ok hp) h.head_lt
    have hyoung := h.text_youngest
    have hclean := h.queue_clean
    have hwithin := h.text_within
    have hbusy := h.busy_iff
    rw [hcons] at hyoung hclean hwithin hbusy
    have hrest := any_hasText_tail hyoung
    rw [← hbusy] at hrest
    exact { h.taken .ok with
      count_le := (Nat.sub_le ..).trans h.count_le
      head_lt := Nat.mod_lt _ (Nat.zero_lt_of_lt h.head_lt)
      busy_iff := hrest.symm
      text_youngest := fun p hm => hyoung p (mem_dropLast_cons hm)
      peek_ok := fun hv => by cases hv
      queue_clean := fun p hm => hclean p (List.mem_cons_of_mem _ hm)
      text_within := fun p hm => hwithin p (List.mem_cons_of_mem _ hm) }
  · exact { h.taken .fault with }

/-- RESET keeps acc, the slots and the parameters, and gives every other register its reset value (R311). -/
theorem Inv.reset {s : State} (h : s.Inv) : (s.consume.softReset.respond .ok).Inv :=
  { h.taken .ok with
    count_le := Nat.zero_le _
    head_lt := ((Params.ok_iff _).1 h.params_ok).1.1
    busy_iff := rfl
    text_youngest := fun _ hm => by cases hm
    awaiting_ok := fun hw => by cases hw
    synced_ok := fun _ => rfl
    errors_lt := (by decide : (0 : Byte).toNat < Config.errThreshold)
    frame_ok := fun hf => absurd rfl hf
    binary_ok := fun hb => by cases hb
    header_ok := fun hb => by cases hb
    ascii_ok := fun _ => Nat.zero_le _
    peek_ok := fun hv => by cases hv
    queue_clean := fun _ hm => by cases hm
    text_within := fun _ hm => by cases hm
    work_idle := rfl }

/-- A transaction word names one of the eight transactions (R80). -/
theorem decodeTransaction_cases (w : Half) :
    decodeTransaction w = .idle ∨ (∃ b src, decodeTransaction w = .byte b src) ∨ decodeTransaction w = .peek ∨
    decodeTransaction w = .pop ∨ decodeTransaction w = .reset ∨ (∃ v, decodeTransaction w = .cfgWrite v) ∨
    decodeTransaction w = .status ∨ decodeTransaction w = .rsvd7 := by
  unfold decodeTransaction
  split <;> simp

/-- A good state has a transaction word at the port, or nothing, which is IDLE (R80, R310). -/
theorem Inv.fetch_space {s : State} (h : s.Inv) : s.fetch.space = .transaction := by
  unfold fetch
  cases hp : s.port with
  | nil => rfl
  | cons p rest => exact (h.port_ok p (hp ▸ List.mem_cons_self)).1

/-- What a good state decodes is one of the eight transactions. -/
theorem Inv.decode_fetch {s : State} {i : Instr} (h : s.Inv) (hd : decode s.fetch = .ok i) :
    i = decodeTransaction s.fetch.word := by
  unfold decode at hd
  rw [h.fetch_space] at hd
  split at hd
  · injection hd with hd
    exact hd.symm
  · cases hd

/-- Each of the eight transactions keeps the invariant. -/
theorem Inv.transaction {s t : State} {w : Half} (h : s.Inv) (ht : exec (decodeTransaction w) s = .next t) :
    t.Inv := by
  rcases decodeTransaction_cases w with he | ⟨b, src, he⟩ | he | he | he | ⟨v, he⟩ | he | he <;> rw [he] at ht
  · exact Host.Outcome.next.inj ht ▸ h.taken .ok
  · exact h.byte ht
  · exact h.peek ht
  · exact h.pop ht
  · exact Host.Outcome.next.inj ht ▸ h.reset
  · exact Host.Outcome.next.inj ht ▸ { h.taken .ok with }
  · exact Host.Outcome.next.inj ht ▸ h.taken (.status s.stat0 s.stat1 s.stat2 s.stat3)
  · exact Host.Outcome.next.inj ht ▸ h.taken .ok

end State

/-- Settles O59: a good state decodes one of the eight transactions, and each keeps the invariant. -/
theorem everyStepKeepsTheInvariant : Obligations.EveryStepKeepsTheInvariant := by
  intro s t hs ht
  obtain ⟨i, hd, he⟩ := step_next.1 ht
  rw [hs.decode_fetch hd] at he
  exact hs.transaction he

end Sys2Proof.Machine
end

section
/-! # The queue is a FIFO: one record more at its end, or one less at its front -/

namespace Sys2Proof.Machine

/-! ## One more record, or none -/

/-- `t` has the queue of `s`, or that queue with one record more at its end (R69). -/
def State.QueueGrows (s t : State) : Prop := t.queue = s.queue ∨ ∃ r, t.queue = s.queue ++ [r]

namespace State

theorem QueueGrows.of_eq {s t : State} (h : t.queue = s.queue) : s.QueueGrows t := .inl h

/-- What leaves the queue may come before and after what grows it. -/
theorem QueueGrows.congr {s s' t t' : State} (h : s'.QueueGrows t') (hs : s'.queue = s.queue)
    (ht : t.queue = t'.queue) : s.QueueGrows t := by
  unfold QueueGrows at h ⊢
  rwa [ht, ← hs]

theorem push_queueGrows {s t : State} {r : Record} (h : s.push r = .ok t) : s.QueueGrows t := .inr ⟨r, queue_push h⟩

/-- The queue is read off the slots, the head, the count and QCAP alone (R34). -/
theorem queue_congr {s t : State} (hslots : t.slots = s.slots) (hhead : t.head = s.head) (hcount : t.count = s.count)
    (hparams : t.params = s.params) : t.queue = s.queue := by
  unfold queue
  rw [hslots, hhead, hcount, hparams]

@[simp] theorem fail_queue (s : State) (k : ErrorKind) : (s.fail k).queue = s.queue :=
  queue_congr (s.fail_slots k) (s.fail_head k) (s.fail_count k) (s.fail_params k)

@[simp] theorem classifyFirst_queue (s : State) (b : Byte) (src : Bool) : (s.classifyFirst b src).queue = s.queue := by
  rcases s.classifyFirst_cases b src with ⟨-, -, h⟩ | ⟨-, h⟩
  · rw [h]
    rfl
  · rw [h]

@[simp] theorem learnSize_queue (s : State) : s.learnSize.queue = s.queue := by
  rcases s.learnSize_cases with ⟨n, -, -, -, -, h⟩ | h
  · rw [h]
    rfl
  · rw [h]

@[simp] theorem terminateText_queue (s : State) (w : Work) (l : Nat) : (s.terminateText w l).queue = s.queue := by
  rcases s.terminateText_cases w l with h | h
  · rw [h]
  · rw [h]
    rfl

theorem storeByte_queue {s t : State} {b : Byte} (h : s.storeByte b = .ok t) : t.queue = s.queue := by
  obtain ⟨-, rfl⟩ := storeByte_cases h
  rfl

/-! ## The intake -/

/-- SEQ pushes what it accepts and drops what it does not (R230). -/
theorem sequence_queueGrows {s t : State} {r : Record} (h : s.sequence r = .ok t) : s.QueueGrows t := by
  rcases sequence_cases h with ⟨-, rfl⟩ | ⟨-, -, u, hu, rfl⟩ | ⟨-, -, -, u, hu, rfl⟩ | ⟨-, -, -, -, rfl⟩ |
    ⟨-, -, -, -, rfl⟩
  · exact .of_eq rfl
  · exact (push_queueGrows hu).congr rfl rfl
  · exact (push_queueGrows hu).congr rfl rfl
  · exact .of_eq rfl
  · exact .of_eq rfl

theorem completeBinary_queueGrows {s t : State} {l : Nat} (h : s.completeBinary l = .ok t) : s.QueueGrows t := by
  obtain ⟨-, -, ⟨-, rfl⟩ | ⟨-, w, -, hw⟩⟩ := completeBinary_cases h
  · exact .of_eq (fail_queue ..)
  · exact (sequence_queueGrows hw).congr (terminateText_queue ..) rfl

theorem completeAscii_queueGrows {s t : State} {n : Nat} (h : s.completeAscii n = .ok t) : s.QueueGrows t := by
  obtain ⟨-, ⟨k, -, rfl⟩ | ⟨-, hq⟩⟩ := completeAscii_cases h
  · exact .of_eq (fail_queue ..)
  · exact sequence_queueGrows hq

theorem endLine_queueGrows {s t : State} (h : s.endLine = .ok t) : s.QueueGrows t := by
  rcases endLine_cases h with ⟨-, rfl⟩ | ⟨-, h⟩
  · exact .of_eq rfl
  · exact (completeAscii_queueGrows h).congr rfl rfl

theorem binaryByte_queueGrows {s t : State} {b : Byte} (h : s.binaryByte b = .ok t) : s.QueueGrows t := by
  obtain ⟨u, hu, hc⟩ := binaryByte_cases h
  have hstored : u.learnSize.queue = s.queue := u.learnSize_queue.trans (storeByte_queue hu)
  rcases hc with ⟨-, -, hc⟩ | ⟨-, rfl⟩
  · exact (completeBinary_queueGrows hc).congr hstored rfl
  · exact .of_eq hstored

theorem asciiByte_queueGrows {s t : State} {b : Byte} (h : s.asciiByte b = .ok t) : s.QueueGrows t := by
  rcases asciiByte_cases h with ⟨-, -, h⟩ | ⟨-, -, rfl⟩ | ⟨-, -, h⟩ | ⟨-, -, -, rfl⟩ | ⟨-, -, -, -, rfl⟩ |
    ⟨-, -, -, -, h⟩
  · exact (endLine_queueGrows h).congr rfl rfl
  · exact .of_eq rfl
  · exact endLine_queueGrows h
  · exact .of_eq rfl
  · exact .of_eq (fail_queue ..)
  · exact .of_eq (storeByte_queue h)

theorem intake_queueGrows {s t : State} {b : Byte} {src : Bool} (h : s.intake b src = .ok t) : s.QueueGrows t := by
  rcases intake_cases h with ⟨-, h⟩ | ⟨-, h⟩
  · exact (binaryByte_queueGrows h).congr (s.classifyFirst_queue b src) rfl
  · exact (asciiByte_queueGrows h).congr (s.classifyFirst_queue b src) rfl

end State

/-! ## The transactions -/

theorem execByte_queueGrows {s t : State} {b : Byte} {src : Bool} (h : execByte b src s = .next t) :
    s.QueueGrows t := by
  rcases execByte_next h with ⟨-, rfl⟩ | ⟨-, -, rfl⟩ | ⟨-, -, h⟩
  · exact .of_eq rfl
  · exact .of_eq rfl
  · exact (State.intake_queueGrows h).congr rfl rfl

theorem keepIf_eq_self {α : Type} {present : Bool} {v : Option α} (h : v.isSome = present) :
    keepIf present v = v := by
  subst h
  cases v <;> rfl

/-- PEEK has nothing to hide in a record that has exactly the fields of its masks (R41, R292). -/
theorem Record.reported_eq_self {r : Record} (h : r.matchesMasks = true) : r.reported = r := by
  simp only [Record.matchesMasks, Bool.and_eq_true, beq_iff_eq] at h
  simp only [Record.reported, keepIf_eq_self, h]

theorem execPeek_queue {s t : State} (h : execPeek s = .next t) : t.queue = s.queue := by
  rcases execPeek_next h with ⟨-, rfl⟩ | ⟨-, r, text, -, -, rfl⟩ <;> rfl

/-- PEEK of a good state answers the oldest record, as it was pushed (R292). -/
theorem State.Inv.peek_response {s t : State} {r : Record} {rest : List Record} (hs : s.Inv)
    (h : execPeek s = .next t) (hq : s.queue = r :: rest) : ∃ text, t.response = .record r text := by
  have hmasks : r.matchesMasks = true := (hs.queue_clean r (hq ▸ List.mem_cons_self)).2
  rcases execPeek_next h with ⟨hc, rfl⟩ | ⟨hc, p, text, hp, -, rfl⟩
  · simp [State.queue, hc] at hq
  · have hcons := State.queue_eq_cons hp (Nat.pos_iff_ne_zero.2 hc) hs.head_lt
    obtain ⟨rfl, -⟩ := List.cons.inj (hcons.symm.trans hq)
    exact ⟨text, by rw [Record.reported_eq_self hmasks]⟩

/-- POP of a good state drops the oldest record after a PEEK, and nothing without one (R293, R294). -/
theorem State.Inv.pop_queue {s t : State} (hs : s.Inv) (h : execPop s = .next t) :
    t.queue = if s.peekValid then s.queue.tail else s.queue := by
  rcases execPop_next h with ⟨hp, r, hr, rfl⟩ | ⟨hp, rfl⟩
  · rw [hp, if_pos rfl, State.queue_eq_cons hr (hs.peek_ok hp) hs.head_lt]
    rfl
  · rw [hp]
    rfl

/-- Settles O12: BYTE by what its intake can do to the queue, PEEK and POP by the record at the head, and the others by
the registers they leave. -/
theorem queueIsFifo : Obligations.QueueIsFifo := by
  intro s t hs
  exact ⟨fun b src h => execByte_queueGrows h, fun h => ⟨execPeek_queue h, fun r rest => hs.peek_response h⟩,
    hs.pop_queue, fun h => Host.Outcome.next.inj h ▸ rfl, fun h => Host.Outcome.next.inj h ▸ rfl,
    fun v h => Host.Outcome.next.inj h ▸ rfl, fun h => Host.Outcome.next.inj h ▸ rfl,
    fun h => Host.Outcome.next.inj h ▸ rfl⟩

end Sys2Proof.Machine
end

section
/-! # Who writes the accumulator -/

namespace Sys2Proof.Machine

/-! ## The end of a line -/

namespace State

theorem push_acc {s t : State} {r : Record} (h : s.push r = .ok t) : t.acc = s.acc := by
  obtain ⟨-, -, rfl⟩ := push_cases h
  rfl

/-- A queued text stays where its bytes were received: SEQ copies nothing (R64). -/
theorem sequence_acc {s t : State} {r : Record} (h : s.sequence r = .ok t) : t.acc = s.acc := by
  rcases sequence_cases h with ⟨-, rfl⟩ | ⟨-, -, u, hu, rfl⟩ | ⟨-, -, -, u, hu, rfl⟩ | ⟨-, -, -, -, rfl⟩ |
    ⟨-, -, -, -, rfl⟩
  · rfl
  · exact (push_acc hu :)
  · exact (push_acc hu :)
  · rfl
  · rfl

theorem completeAscii_acc {s t : State} {n : Nat} (h : s.completeAscii n = .ok t) : t.acc = s.acc := by
  obtain ⟨-, ⟨k, -, rfl⟩ | ⟨-, hq⟩⟩ := completeAscii_cases h
  · exact s.fail_acc k
  · exact sequence_acc hq

theorem endLine_acc {s t : State} (h : s.endLine = .ok t) : t.acc = s.acc := by
  rcases endLine_cases h with ⟨-, rfl⟩ | ⟨-, h⟩
  · rfl
  · exact (completeAscii_acc h :)

theorem endComment_acc {s t : State} (h : s.endComment = .ok t) : t.acc = s.acc := (endLine_acc h :)

theorem classifyFirst_acc (s : State) (b : Byte) (src : Bool) : (s.classifyFirst b src).acc = s.acc := by
  rcases s.classifyFirst_cases b src with ⟨-, -, h⟩ | ⟨-, h⟩
  · rw [h]
    rfl
  · rw [h]

/-- All that NUL, LF and CR can do (R268, R269). -/
theorem hardTerminator_cases {s t : State} (h : s.hardTerminator = .ok t) :
    (s.binMode = true ∧ t = s) ∨ (s.binMode = false ∧ s.comment = true ∧ s.endComment = .ok t) ∨
    (s.binMode = false ∧ s.comment = false ∧ s.endLine = .ok t) := by
  unfold hardTerminator at h
  cases hb : s.binMode <;> cases hc : s.comment <;> simpa [hb, hc, eq_comm] using h

theorem hardTerminator_acc {s t : State} (h : s.hardTerminator = .ok t) : t.acc = s.acc := by
  rcases hardTerminator_cases h with ⟨-, rfl⟩ | ⟨-, -, h⟩ | ⟨-, -, h⟩
  · rfl
  · exact endComment_acc h
  · exact endLine_acc h

end State

/-! ## The structural rows by themselves -/

/-- All that the row TERM_COLON can do (R93, R269). -/
theorem execTermColon_next {s t : State} (h : execTermColon s = .next t) :
    ((s.binMode = true ∨ s.comment = true) ∧ t = s.consume) ∨
    (s.binMode = false ∧ s.comment = false ∧ s.consume.endLine = .ok t) := by
  unfold execTermColon at h
  cases hb : s.binMode <;> cases hc : s.comment <;> simpa [hb, hc, finish_next, eq_comm (b := t)] using h

/-- All that the row COMMENT can do (R268, R273). -/
theorem execComment_next {s t : State} (h : execComment s = .next t) :
    ((s.binMode = true ∨ s.comment = true) ∧ t = s.consume) ∨
    (s.binMode = false ∧ s.comment = false ∧ t = s.consume.startComment) := by
  unfold execComment at h
  cases hb : s.binMode <;> cases hc : s.comment <;> simpa [hb, hc, eq_comm] using h

/-- All that the row M110 can do by itself (R232). -/
theorem execM110_next {s t : State} (h : execM110 s = .next t) :
    (s.work.cmd.isLineReset = true ∧ t = s.consume.lineReset s.work.cmd) ∨
    (s.work.cmd.isLineReset = false ∧ t = s.consume) := by
  unfold execM110 at h
  cases hr : s.work.cmd.isLineReset <;> simpa [hr, eq_comm] using h

/-! ## The writers -/

/-- A refused byte is not stored (R262). -/
theorem execByte_acc_of_refused {s t : State} {b : Byte} {src : Bool} (h : execByte b src s = .next t)
    (hr : s.payloadBusy = true ∨ s.count = s.params.qcap) : t.acc = s.acc := by
  rcases execByte_next h with ⟨-, rfl⟩ | ⟨-, -, rfl⟩ | ⟨hc, hb, -⟩
  · rfl
  · rfl
  · rcases hr with hr | hr
    · rw [hb] at hr
      cases hr
    · exact absurd hr hc

/-- No instruction but BYTE stores into acc (R60). -/
theorem exec_acc_of_ne_byte {i : Instr} {s t : State} (h : exec i s = .next t) (hbyte : ∀ b src, i ≠ .byte b src) :
    t.acc = s.acc := by
  cases hd : isDecodeRow i with
  | true =>
    obtain ⟨w, rfl⟩ := exec_of_isDecodeRow hd h
    rfl
  | false =>
    cases i with
    | idle | rsvd7 | status | reset | cfgWrite =>
      injection h with h
      exact h ▸ rfl
    | peek => rcases execPeek_next h with ⟨-, rfl⟩ | ⟨-, r, text, -, -, rfl⟩ <;> rfl
    | pop => rcases execPop_next h with ⟨-, r, -, rfl⟩ | ⟨-, rfl⟩ <;> rfl
    | firstBinary b src | firstAscii b src =>
      injection h with h
      exact h ▸ s.consume.classifyFirst_acc b src
    | termNul | termLf | termCr => exact State.hardTerminator_acc (s := s.consume) (finish_next.1 h)
    | termColon =>
      rcases execTermColon_next h with ⟨-, rfl⟩ | ⟨-, -, h⟩
      · rfl
      · exact State.endLine_acc (s := s.consume) h
    | comment => rcases execComment_next h with ⟨-, rfl⟩ | ⟨-, -, rfl⟩ <;> rfl
    | m110 => rcases execM110_next h with ⟨-, rfl⟩ | ⟨-, rfl⟩ <;> rfl
    | byte b src => exact absurd rfl (hbyte b src)
    | _ => cases hd

/-- Settles O33: BYTE is the one instruction that stores, and not when it is refused. -/
theorem onlyAdmittedBytesWriteTheAccumulator : Obligations.OnlyAdmittedBytesWriteTheAccumulator := by
  rintro i s t h (hbyte | hrefused)
  · exact exec_acc_of_ne_byte h hbyte
  · cases i with
    | byte b src => exact execByte_acc_of_refused h hrefused
    | _ => exact exec_acc_of_ne_byte h (by simp)

end Sys2Proof.Machine
end

section
/-! # Encoding: what the decoder reads from a word, and that it reads back what the encoder writes -/

namespace Sys2Proof

/-! ## The decoder -/

/-- A word within its format's width is read by its format alone. -/
theorem decode_eq_ok {p : PortWord} {i : Instr} (hwidth : p.word.toNat < 2 ^ p.space.width)
    (hin : decodeIn p.space p.word = some i) : decode p = .ok i := by
  simp only [decode, if_pos hwidth, hin]

/-- Every 12-bit word is a transaction (R81, R310). -/
theorem decode_transaction {w : Half} (hw : w.toNat < 4096) : decode ⟨.transaction, w⟩ = .ok (decodeTransaction w) :=
  decode_eq_ok hw rfl

/-- The op of a transaction word, tw[2:0], as a number (R81). -/
theorem toNat_op (w : Half) : (w.extractLsb' 0 3).toNat = w.toNat % 8 := by
  simp

/-- tw[11:4], bit by bit (R81). -/
theorem twData_getLsbD (w : Half) {k : Nat} (hk : k < 8) : (twData w).getLsbD k = w.getLsbD (k + 4) := by
  rw [twData, BitVec.getLsbD_extractLsb', decide_eq_true hk, Bool.true_and, Nat.add_comm]

/-- The op alone selects the transaction, and only BYTE and CFG_WRITE read the other fields (R81, R315). -/
theorem decodeTransaction_eq (w : Half) :
    (w.toNat % 8 = 0 → decodeTransaction w = .idle) ∧
    (w.toNat % 8 = 1 → decodeTransaction w = .byte (twData w) (twSrc w)) ∧
    (w.toNat % 8 = 2 → decodeTransaction w = .peek) ∧
    (w.toNat % 8 = 3 → decodeTransaction w = .pop) ∧
    (w.toNat % 8 = 4 → decodeTransaction w = .reset) ∧
    (w.toNat % 8 = 5 → decodeTransaction w = .cfgWrite ((twData w).getLsbD 0)) ∧
    (w.toNat % 8 = 6 → decodeTransaction w = .status) ∧
    (w.toNat % 8 = 7 → decodeTransaction w = .rsvd7) := by
  unfold decodeTransaction
  rw [toNat_op]
  refine ⟨?_, ?_, ?_, ?_, ?_, ?_, ?_, ?_⟩ <;> intro h <;> simp only [h]

/-- The wire form of a frame by bits 7 and 12 of its bitfield-1 (R99, R103). -/
theorem decode_wireForm (w : Half) : decode ⟨.wireForm, w⟩ =
    bif w.getLsbD 7 then .ok (bif w.getLsbD 12 then .bf1V2 else .bf1V1) else .error (.noRow .wireForm) := by
  have hwidth : w.toNat < 2 ^ Space.wireForm.width := w.isLt
  simp only [decode, if_pos hwidth, decodeIn, findRow, wireFormRows, List.find?, Row.matchesWord,
    Machine.wireForm_mask]
  cases w.getLsbD 7 <;> cases w.getLsbD 12 <;> rfl

/-! ## The fields of an encoded word -/

theorem op_twWord (op : BitVec 3) (src : Bool) (data : Byte) :
    (twWord op src data).extractLsb' 0 3 = op := by
  simp (disch := omega) only [twWord, BitVec.extractLsb'_append_eq_of_add_le, BitVec.extractLsb'_eq_self]

theorem twSrc_twWord (op : BitVec 3) (src : Bool) (data : Byte) : twSrc (twWord op src data) = src := by
  simp only [twSrc, twWord, BitVec.getLsbD_append]
  simp

theorem twData_twWord (op : BitVec 3) (src : Bool) (data : Byte) : twData (twWord op src data) = data := by
  simp (disch := omega) only [twData, twWord, BitVec.extractLsb'_append_eq_of_le,
    BitVec.extractLsb'_append_eq_of_add_le, Nat.reduceSub, BitVec.extractLsb'_eq_self]

theorem firstWord_byte (b : Byte) (src : Bool) : (firstWord b src).extractLsb' 0 8 = b := by
  simp (disch := omega) only [firstWord, BitVec.extractLsb'_append_eq_of_add_le, BitVec.extractLsb'_eq_self]

theorem firstWord_src (b : Byte) (src : Bool) : (firstWord b src).getLsbD 8 = src := by
  simp only [firstWord, BitVec.getLsbD_append]
  simp

theorem firstWord_binary (b : Byte) (src : Bool) : (firstWord b src).getLsbD 7 = b.getLsbD 7 := by
  simp only [firstWord, BitVec.getLsbD_append]
  simp

/-! ## The round trip -/

theorem decodeTransaction_byte (b : Byte) (src : Bool) : decodeTransaction (twWord 1 src b) = .byte b src := by
  simp only [decodeTransaction, op_twWord, twData_twWord, twSrc_twWord]
  rfl

theorem decodeTransaction_cfgWrite (v : Bool) :
    decodeTransaction (twWord 5 false (if v then 1 else 0)) = .cfgWrite v := by
  cases v <;> rfl

/-- The first byte is read back as the wire form its bit 7 says (R85, R263). -/
theorem decodeFirstByte_firstWord (b : Byte) (src : Bool) : decodeFirstByte (firstWord b src) =
    if b.getLsbD 7 then .firstBinary b src else .firstAscii b src := by
  simp only [decodeFirstByte, firstWord_byte, firstWord_src, firstWord_binary]

/-- Every instruction's word is within its format's width (R81, R103). -/
theorem encode_fits (i : Instr) : (encode i).word.toNat < 2 ^ (encode i).space.width := by
  cases i with
  | byte b src => exact Laws.EncodeFits.byte b src
  | cfgWrite v => exact Laws.EncodeFits.cfgWrite v
  | firstBinary b src => exact Laws.EncodeFits.firstBinary b src
  | firstAscii b src => exact Laws.EncodeFits.firstAscii b src
  | _ => decide

/-- The first row of its format that a well-formed instruction's word matches is its own (R81, R103). -/
theorem decodeIn_encode {i : Instr} (hwf : i.wf = true) : decodeIn (encode i).space (encode i).word = some i := by
  cases i with
  | byte b src => exact congrArg some (decodeTransaction_byte b src)
  | cfgWrite v => exact congrArg some (decodeTransaction_cfgWrite v)
  | firstBinary b src =>
    have hb : b.getLsbD 7 = true := hwf
    exact congrArg some ((decodeFirstByte_firstWord b src).trans (if_pos hb))
  | firstAscii b src =>
    have hb : ¬ b.getLsbD 7 = true := by simpa [Instr.wf] using hwf
    exact congrArg some ((decodeFirstByte_firstWord b src).trans (if_neg hb))
  | idle | peek | pop | reset | status | rsvd7 => rfl
  | bf1V1 | bf1V2 => rfl
  | bf1Mark | bf1N | bf1M | bf1G | bf1X | bf1Y | bf1Z | bf1E | bf1F | bf1T | bf1S | bf1P | bf1Ext | bf1Internal
  | bf1TextV1 | bf1TextV2 => rfl
  | bf2I | bf2J | bf2R | bf2Rsv => rfl
  | tokM | tokN | tokG | tokX | tokY | tokZ | tokE | tokF | tokT | tokS | tokP | tokI | tokJ | tokR => rfl
  | termNul | termLf | termCr | termColon | comment | checksumStar => rfl
  | m23 | m28 | m29 | m30 | m32 | m117 | m3117 | m110 => rfl

/-- Settles O1: the word fits its format, and its format reads the instruction back. -/
theorem decodeEncodeAgree : Obligations.DecodeEncodeAgree :=
  fun i hwf => decode_eq_ok (encode_fits i) (decodeIn_encode hwf)

/-- Settles O2: a 12-bit word is read by its op, and the fields BYTE and CFG_WRITE read are its bits. -/
theorem transactionWordByItsBits : Obligations.TransactionWordByItsBits := by
  intro w hw
  obtain ⟨hidle, hbyte, hpeek, hpop, hreset, hcfg, hstatus, hrsvd⟩ := decodeTransaction_eq w
  rw [decode_transaction hw]
  refine ⟨fun h => congrArg _ (hidle h), fun h => ?_, fun h => congrArg _ (hpeek h), fun h => congrArg _ (hpop h),
    fun h => congrArg _ (hreset h), fun h => ?_, fun h => congrArg _ (hstatus h), fun h => congrArg _ (hrsvd h)⟩
  · exact ⟨twData w, twSrc w, congrArg _ (hbyte h), fun k hk => twData_getLsbD w hk, rfl⟩
  · rw [hcfg h, twData_getLsbD w (by decide)]

/-- Settles O3: the written-out words by evaluation, the wire forms by their two bits. -/
theorem writtenOutWordsDecode : Obligations.WrittenOutWordsDecode := by
  refine ⟨rfl, rfl, rfl, rfl, rfl, rfl, rfl, fun w => ?_, rfl, rfl, rfl, rfl, rfl⟩
  rw [decode_wireForm]
  refine ⟨fun h7 h12 => ?_, fun h7 h12 => ?_, fun h7 => ?_⟩
  · rw [h7, h12]; rfl
  · rw [h7, h12]; rfl
  · rw [h7]; rfl

end Sys2Proof
end

section
/-! # One step, one word: the step as exec of the word at the port, and what every instruction keeps -/

namespace Sys2Proof.Machine

/-! ## The word at the port -/

theorem State.fetch_cons {s : State} {p : PortWord} {rest : List PortWord} (h : s.port = p :: rest) : s.fetch = p := by
  rw [State.fetch, h, List.headD_cons]

/-- With nothing offered the word is that of IDLE (R310). -/
theorem State.fetch_nil {s : State} (h : s.port = []) : s.fetch = encode .idle := by
  rw [State.fetch, h]
  rfl

theorem step_eq_exec {s : State} {i : Instr} (h : decode s.fetch = .ok i) : step s = exec i s := by
  simp only [step, h]

/-- A step performs the well-formed instruction whose word it fetches (R80). -/
theorem step_eq_exec_of_encode {s : State} {i : Instr} (hwf : i.wf = true) (h : s.fetch = encode i) :
    step s = exec i s :=
  step_eq_exec (h ▸ decodeEncodeAgree i hwf)

/-- Settles O4: the step decodes what it fetches, and the decoder reads back what the encoder writes. -/
theorem stepRunsTheDecodedInstruction : Obligations.StepRunsTheDecodedInstruction :=
  ⟨fun _ _ => step_eq_exec, fun _ _ _ => State.fetch_cons,
    fun _ _ _ hwf h => step_eq_exec_of_encode hwf (State.fetch_cons h),
    fun _ h => step_eq_exec_of_encode rfl (State.fetch_nil h)⟩

/-- Settles O8: the word is taken, the outputs are cleared, and CFG_WRITE sets its bit. -/
theorem idleReservedAndCfgWrite : Obligations.IdleReservedAndCfgWrite :=
  fun _ => ⟨rfl, rfl, fun _ => rfl⟩

/-! ## The number of slots -/

namespace State

/-- A push overwrites a slot and adds none (R290). -/
theorem push_slots_length {s t : State} {r : Record} (h : s.push r = .ok t) : t.slots.length = s.slots.length := by
  obtain ⟨-, -, rfl⟩ := push_cases h
  exact List.length_set

theorem sequence_slots_length {s t : State} {r : Record} (h : s.sequence r = .ok t) :
    t.slots.length = s.slots.length := by
  rcases sequence_cases h with ⟨-, rfl⟩ | ⟨-, -, u, hu, rfl⟩ | ⟨-, -, -, u, hu, rfl⟩ | ⟨-, -, -, -, rfl⟩ |
    ⟨-, -, -, -, rfl⟩
  · rfl
  · exact (push_slots_length hu :)
  · exact (push_slots_length hu :)
  · rfl
  · rfl

theorem classifyFirst_slots (s : State) (b : Byte) (src : Bool) : (s.classifyFirst b src).slots = s.slots := by
  rcases s.classifyFirst_cases b src with ⟨-, -, h⟩ | ⟨-, h⟩ <;> rw [h]
  rfl

theorem learnSize_slots (s : State) : s.learnSize.slots = s.slots := by
  rcases s.learnSize_cases with ⟨n, -, -, -, -, h⟩ | h <;> rw [h]

theorem terminateText_slots (s : State) (w : Work) (l : Nat) : (s.terminateText w l).slots = s.slots := by
  rcases s.terminateText_cases w l with h | h <;> rw [h]

theorem storeByte_slots {s t : State} {b : Byte} (h : s.storeByte b = .ok t) : t.slots = s.slots := by
  obtain ⟨-, rfl⟩ := storeByte_cases h
  rfl

theorem completeBinary_slots_length {s t : State} {l : Nat} (h : s.completeBinary l = .ok t) :
    t.slots.length = s.slots.length := by
  obtain ⟨-, -, ⟨-, rfl⟩ | ⟨-, w, -, hw⟩⟩ := completeBinary_cases h
  · rw [fail_slots, leaveFrame_slots]
  · rw [sequence_slots_length hw, terminateText_slots, leaveFrame_slots]

theorem completeAscii_slots_length {s t : State} {n : Nat} (h : s.completeAscii n = .ok t) :
    t.slots.length = s.slots.length := by
  obtain ⟨-, ⟨k, -, rfl⟩ | ⟨-, hq⟩⟩ := completeAscii_cases h
  · rw [fail_slots]
  · exact sequence_slots_length hq

theorem endLine_slots_length {s t : State} (h : s.endLine = .ok t) : t.slots.length = s.slots.length := by
  rcases endLine_cases h with ⟨-, rfl⟩ | ⟨-, h⟩
  · rfl
  · exact (completeAscii_slots_length h :)

theorem endComment_slots_length {s t : State} (h : s.endComment = .ok t) : t.slots.length = s.slots.length :=
  (endLine_slots_length h :)

theorem hardTerminator_slots_length {s t : State} (h : s.hardTerminator = .ok t) :
    t.slots.length = s.slots.length := by
  rcases hardTerminator_cases h with ⟨-, rfl⟩ | ⟨-, -, h⟩ | ⟨-, -, h⟩
  · rfl
  · exact endComment_slots_length h
  · exact endLine_slots_length h

theorem binaryByte_slots_length {s t : State} {b : Byte} (h : s.binaryByte b = .ok t) :
    t.slots.length = s.slots.length := by
  obtain ⟨u, hu, hc⟩ := binaryByte_cases h
  have hstored : u.learnSize.slots = s.slots := u.learnSize_slots.trans (storeByte_slots hu)
  rcases hc with ⟨-, -, hc⟩ | ⟨-, rfl⟩
  · rw [completeBinary_slots_length hc, hstored]
  · rw [hstored]

theorem asciiByte_slots_length {s t : State} {b : Byte} (h : s.asciiByte b = .ok t) :
    t.slots.length = s.slots.length := by
  rcases asciiByte_cases h with ⟨-, -, h⟩ | ⟨-, -, rfl⟩ | ⟨-, -, h⟩ | ⟨-, -, -, rfl⟩ | ⟨-, -, -, -, rfl⟩ |
    ⟨-, -, -, -, h⟩
  · exact endComment_slots_length h
  · rfl
  · exact endLine_slots_length h
  · rfl
  · rw [overflow, fail_slots]
  · rw [storeByte_slots h]

theorem intake_slots_length {s t : State} {b : Byte} {src : Bool} (h : s.intake b src = .ok t) :
    t.slots.length = s.slots.length := by
  rw [← s.classifyFirst_slots b src]
  rcases intake_cases h with ⟨-, h⟩ | ⟨-, h⟩
  · exact binaryByte_slots_length h
  · exact asciiByte_slots_length h

end State

/-- No instruction adds or drops a slot (R33). -/
theorem exec_slots_length {i : Instr} {s t : State} (h : exec i s = .next t) : t.slots.length = s.slots.length := by
  cases hd : isDecodeRow i with
  | true =>
    obtain ⟨w, rfl⟩ := exec_of_isDecodeRow hd h
    rfl
  | false =>
    cases i with
    | idle | rsvd7 | status | reset | cfgWrite =>
      injection h with h
      exact h ▸ rfl
    | byte b src =>
      rcases execByte_next h with ⟨-, rfl⟩ | ⟨-, -, rfl⟩ | ⟨-, -, h⟩
      · rfl
      · rfl
      · exact (State.intake_slots_length h :)
    | peek => rcases execPeek_next h with ⟨-, rfl⟩ | ⟨-, r, text, -, -, rfl⟩ <;> rfl
    | pop => rcases execPop_next h with ⟨-, r, -, rfl⟩ | ⟨-, rfl⟩ <;> rfl
    | firstBinary b src | firstAscii b src =>
      injection h with h
      exact h ▸ congrArg List.length (s.consume.classifyFirst_slots b src)
    | termNul | termLf | termCr => exact State.hardTerminator_slots_length (s := s.consume) (finish_next.1 h)
    | termColon =>
      rcases execTermColon_next h with ⟨-, rfl⟩ | ⟨-, -, h⟩
      · rfl
      · exact State.endLine_slots_length (s := s.consume) h
    | comment => rcases execComment_next h with ⟨-, rfl⟩ | ⟨-, -, rfl⟩ <;> rfl
    | m110 => rcases execM110_next h with ⟨-, rfl⟩ | ⟨-, rfl⟩ <;> rfl
    | _ => cases hd

/-! ## The port and the build parameters -/

/-- Every instruction takes its word off the port and keeps the build parameters (R6, R80). -/
theorem exec_port_params {i : Instr} {s t : State} (h : exec i s = .next t) :
    t.port = s.port.tail ∧ t.params = s.params := by
  cases i with
  | peek => rcases execPeek_next h with ⟨-, rfl⟩ | ⟨-, r, text, -, -, rfl⟩ <;> exact ⟨rfl, rfl⟩
  | pop => rcases execPop_next h with ⟨-, r, -, rfl⟩ | ⟨-, rfl⟩ <;> exact ⟨rfl, rfl⟩
  | reset | cfgWrite =>
    injection h with h
    exact h ▸ ⟨rfl, rfl⟩
  | _ =>
    obtain ⟨r, w, hf, -⟩ := exec_intakeFrame h (by simp) (by simp) (by simp) (by simp)
    exact ⟨hf.port, hf.params⟩

/-- Settles O5: the frame of the intake keeps the port and the parameters, and a push keeps the number of slots. -/
theorem everyStepTakesOneWord : Obligations.EveryStepTakesOneWord := by
  intro i s t h
  obtain ⟨hport, hparams⟩ := exec_port_params h
  exact ⟨hport, hparams, exec_slots_length h⟩

end Sys2Proof.Machine
end

section
/-! # Frame lengths: what FS.size answers, on which bits it depends, and that it counts the encoder's bytes -/

namespace Sys2Proof.Machine

/-! ## What FS.size answers -/

/-- FS.size is FAIL exactly on a header that is not whole (R120, R122). -/
theorem fsSize_eq_none_iff (h : List Byte) : fsSize h = none ↔ h.length < 2 ∨ h.length < fsNeed h := by
  constructor
  · intro hn
    by_contra hshort
    rw [fsSize_eq (by omega) (by omega)] at hn
    cases hn
  · intro hshort
    cases hn : fsSize h with
    | none => rfl
    | some n =>
      have := fsNeed_le_of_fsSize hn
      omega

/-- The checksum, at least, follows the header (R123). -/
theorem fsNeed_add_two_le_of_fsSize {h : List Byte} {n : Nat} (hn : fsSize h = some n) : fsNeed h + 2 ≤ n := by
  obtain ⟨h2, hneed⟩ := fsNeed_le_of_fsSize hn
  rw [fsSize_eq h2 hneed] at hn
  injection hn with hn
  have := (commonSize_bounds (headerBf1 h)).1
  rw [fsNeed_eq]
  cases c12 : (headerBf1 h).getLsbD 12 with
  | false =>
    simp only [cond_false]
    omega
  | true =>
    cases c15 : (headerBf1 h).getLsbD 15 <;>
      simp only [c12, c15, cond_true, cond_false, sizeIf, if_true, Config.textCap] at hn ⊢ <;> omega

/-- The longest V1 frame (R124). -/
theorem fsSize_le_of_v1 {h : List Byte} {n : Nat} (hn : fsSize h = some n) (h12 : (headerBf1 h).getLsbD 12 = false) :
    n ≤ 53 := by
  obtain ⟨h2, hneed⟩ := fsNeed_le_of_fsSize hn
  rw [fsSize_eq h2 hneed] at hn
  injection hn with hn
  have := (commonSize_bounds (headerBf1 h)).2
  have := sizeIf_le ((headerBf1 h).getLsbD 1) 1
  have := sizeIf_le ((headerBf1 h).getLsbD 2) 1
  have := sizeIf_le ((headerBf1 h).getLsbD 15) Config.textV1
  simp only [h12, cond_false, Config.textV1] at *
  omega

/-! ## The bits that do not change it -/

/-- Two bitfield-1 words that agree outside the size-neutral bits 7, 13 and 14 (R125). -/
def SameSizeBits (b b' : Half) : Prop :=
  ∀ k < 16, k ≠ 7 → k ≠ 13 → k ≠ 14 → b.getLsbD k = b'.getLsbD k

theorem SameSizeBits.commonSize_eq {b b' : Half} (hb : SameSizeBits b b') : commonSize b = commonSize b' := by
  unfold commonSize
  rw [hb 0, hb 3, hb 4, hb 5, hb 6, hb 8, hb 9, hb 10, hb 11] <;> decide

theorem headerByte_congr {h h' : List Byte} {i : Nat} (hi : h[i]? = h'[i]?) : headerByte h i = headerByte h' i := by
  rw [headerByte, headerByte, List.getD_eq_getElem?_getD, List.getD_eq_getElem?_getD, hi]

/-- Whole headers that agree on what the formula reads give one length (R125). -/
theorem fsSize_congr {h h' : List Byte} (h2 : 2 ≤ h.length) (hn : fsNeed h ≤ h.length) (h2' : 2 ≤ h'.length)
    (hn' : fsNeed h' ≤ h'.length) (hbf1 : SameSizeBits (headerBf1 h) (headerBf1 h'))
    (hbf2 : (headerBf1 h).getLsbD 12 = true → ∀ k < 3, (headerBf2 h).getLsbD k = (headerBf2 h').getLsbD k)
    (htl : (headerBf1 h).getLsbD 12 = true → (headerBf1 h).getLsbD 15 = true → h[4]? = h'[4]?) :
    fsSize h = fsSize h' := by
  have b1 := hbf1 1 (by decide) (by decide) (by decide) (by decide)
  have b2 := hbf1 2 (by decide) (by decide) (by decide) (by decide)
  have b12 := hbf1 12 (by decide) (by decide) (by decide) (by decide)
  have b15 := hbf1 15 (by decide) (by decide) (by decide) (by decide)
  rw [fsSize_eq h2 hn, fsSize_eq h2' hn', hbf1.commonSize_eq, ← b1, ← b2, ← b12, ← b15]
  cases c12 : (headerBf1 h).getLsbD 12 with
  | false => rfl
  | true =>
    rw [hbf2 c12 0 (by decide), hbf2 c12 1 (by decide), hbf2 c12 2 (by decide)]
    cases c15 : (headerBf1 h).getLsbD 15 with
    | false => rfl
    | true => rw [headerByte_congr (htl c12 c15)]

/-- Settles O42: FS.size is FAIL exactly below FS.need, its range is that of the formula's terms, and it reads no more
than the bits and bytes `fsSize_congr` names. -/
theorem frameSizeRangeAndNeutralBits : Obligations.FrameSizeRangeAndNeutralBits := by
  refine ⟨fun h => ?fail, fun h n hn => ?range, fun h h' h2 hneed h2' hneed' hbf1 hbf2 htl => ?neutral⟩
  case fail =>
    rw [fsSize_eq_none_iff, fsNeed_eq]
    cases (headerBf1 h).getLsbD 12 <;> cases (headerBf1 h).getLsbD 15 <;>
      simp only [cond_true, cond_false, Bool.false_eq_true, and_true, and_false, or_false] <;> omega
  case range =>
    have hlow := fsNeed_add_two_le_of_fsSize hn
    have hneed := (State.fsNeed_bounds h).1
    refine ⟨hlow, by omega, (fsSize_bounds hn).2, fsSize_le_of_v1 hn, fun h12 => ?_⟩
    have hneed4 : 4 ≤ fsNeed h := by
      rw [fsNeed_eq, h12]
      cases (headerBf1 h).getLsbD 15 <;> decide
    omega
  case neutral =>
    have hn := fsSize_eq h2 hneed
    exact ⟨_, hn, fsSize_congr h2 hneed h2' hneed' hbf1 hbf2 htl ▸ hn⟩

/-! ## The length of an encoded frame -/

theorem length_le16 (v : Half) : (le16 v).length = 2 := rfl

theorem length_le32 (v : Word) : (le32 v).length = 4 := rfl

theorem length_bytesIf (b : Bool) (l : List Byte) : (bytesIf b l).length = sizeIf b l.length := by
  cases b <;> rfl

theorem length_codeBytes (v2 : Bool) (c : Half) : (codeBytes v2 c).length = bif v2 then 2 else 1 := by
  cases v2 <;> rfl

theorem length_textBytes (v2 : Bool) (t : List Byte) :
    (textBytes v2 t).length = bif v2 then min t.length (Config.textCap - 1) else Config.textV1 := by
  cases v2 <;> simp [textBytes]

/-- The length byte of a V2 frame with text (R220). -/
def lengthByte (r : Record) : Byte := BitVec.ofNat 8 (min (r.textLen.getD 0).toNat (Config.textCap - 1))

theorem lengthByte_toNat {r : Record} {n : Nat} (hn : n < 256) (hr : r.textLen = some (BitVec.ofNat 8 n)) :
    (lengthByte r).toNat = min n (Config.textCap - 1) := by
  rw [lengthByte, hr, Option.getD_some, BitVec.toNat_ofNat, BitVec.toNat_ofNat, Nat.mod_eq_of_lt hn]
  exact Nat.mod_eq_of_lt (by omega)

/-- Bitfield-1 as the encoder writes it, with the binary marker set (R220). -/
def wireBf1 (r : Record) : Half := r.pm1 ||| 0x0080

/-- The marker is bit 7 alone. -/
theorem wireBf1_getLsbD (r : Record) {k : Nat} (hk : k ≠ 7) : (wireBf1 r).getLsbD k = r.pm1.getLsbD k := by
  have hmarker : (0x0080 : Half).getLsbD k = false := by
    rw [show (0x0080 : Half) = BitVec.twoPow 16 7 from rfl, BitVec.getLsbD_twoPow, decide_eq_false hk.symm,
      Bool.and_false]
  rw [wireBf1, BitVec.getLsbD_or, hmarker, Bool.or_false]

theorem wireBf1_v2 (r : Record) : (wireBf1 r).getLsbD 12 = r.pm1.getLsbD 12 := wireBf1_getLsbD r (by decide)

theorem wireBf1_text (r : Record) : (wireBf1 r).getLsbD 15 = r.pm1.getLsbD 15 := wireBf1_getLsbD r (by decide)

/-- The bytes of a frame that FS.size reads: the bitfields, and the length byte of a V2 text (R120). -/
def encodeHeader (r : Record) : List Byte :=
  le16 (wireBf1 r) ++ bytesIf (r.pm1.getLsbD 12) (le16 r.pm2)
    ++ bytesIf (r.pm1.getLsbD 12 && (wireBf1 r).getLsbD 15) [lengthByte r]

theorem encodeBody_eq_append (r : Record) (t : List Byte) : ∃ rest, encodeBody r t = encodeHeader r ++ rest := by
  unfold encodeBody
  simp only [encodeHeader, wireBf1, lengthByte, List.append_assoc]
  exact ⟨_, rfl⟩

theorem encodeRecord_eq_append (r : Record) (t : List Byte) : ∃ rest, encodeRecord r t = encodeHeader r ++ rest := by
  obtain ⟨rest, hrest⟩ := encodeBody_eq_append r t
  exact ⟨_, by rw [encodeRecord, hrest, List.append_assoc]⟩

theorem highByte_append_lowByte (v : Half) : v.extractLsb' 8 8 ++ v.extractLsb' 0 8 = v :=
  (BitVec.extractLsb'_append_extractLsb'_eq_extractLsb' rfl).trans BitVec.extractLsb'_eq_self

theorem headerBf1_encodeHeader (r : Record) : headerBf1 (encodeHeader r) = wireBf1 r :=
  highByte_append_lowByte (wireBf1 r)

theorem headerBf2_encodeHeader {r : Record} (h12 : r.pm1.getLsbD 12 = true) : headerBf2 (encodeHeader r) = r.pm2 := by
  rw [encodeHeader, h12]
  exact highByte_append_lowByte r.pm2

theorem headerByte_encodeHeader {r : Record} (h12 : r.pm1.getLsbD 12 = true) (h15 : r.pm1.getLsbD 15 = true) :
    headerByte (encodeHeader r) 4 = lengthByte r := by
  rw [encodeHeader, wireBf1_text, h12, h15]
  rfl

/-- The encoder's header is just the bytes FS.need asks for (R120). -/
theorem length_encodeHeader (r : Record) : (encodeHeader r).length = fsNeed (encodeHeader r) := by
  rw [fsNeed_eq, headerBf1_encodeHeader, encodeHeader, wireBf1_v2, wireBf1_text]
  cases r.pm1.getLsbD 12 <;> cases r.pm1.getLsbD 15 <;> rfl

/-- The bytes of a frame, item by item (R220). -/
theorem length_encodeRecord (r : Record) (t : List Byte) : (encodeRecord r t).length =
    commonSize (wireBf1 r) + sizeIf (r.pm1.getLsbD 12) 2 + sizeIf (r.pm1.getLsbD 12 && r.pm1.getLsbD 15) 1
      + sizeIf ((wireBf1 r).getLsbD 1) (bif r.pm1.getLsbD 12 then 2 else 1)
      + sizeIf ((wireBf1 r).getLsbD 2) (bif r.pm1.getLsbD 12 then 2 else 1)
      + sizeIf (r.pm1.getLsbD 12 && r.pm2.getLsbD 0) 4 + sizeIf (r.pm1.getLsbD 12 && r.pm2.getLsbD 1) 4
      + sizeIf (r.pm1.getLsbD 12 && r.pm2.getLsbD 2) 4
      + sizeIf (r.pm1.getLsbD 15) (textBytes (r.pm1.getLsbD 12) t).length := by
  have h15 : (r.pm1 ||| 0x0080).getLsbD 15 = r.pm1.getLsbD 15 := wireBf1_text r
  rw [encodeRecord, List.length_append]
  unfold encodeBody
  simp only [List.length_append, length_bytesIf, length_le16, length_le32, length_codeBytes,
    List.length_cons, List.length_nil, Nat.zero_add, commonSize, wireBf1, h15]
  omega

/-- Settles O43: FS.size reads the header alone, and its terms are the lengths of the encoder's items. -/
theorem encodedLengthIsFrameSize : Obligations.EncodedLengthIsFrameSize := by
  intro r t htext
  obtain ⟨rest, hrest⟩ := encodeRecord_eq_append r t
  have hneed := length_encodeHeader r
  have hsize := fsSize_eq (hneed ▸ (State.fsNeed_bounds _).1) hneed.ge
  rw [length_encodeRecord, hrest, fsSize_append hsize rest, headerBf1_encodeHeader, wireBf1_v2,
    wireBf1_text, length_textBytes]
  refine congrArg some ?_
  cases h12 : r.pm1.getLsbD 12 with
  | false =>
    simp only [cond_false, Bool.false_and, sizeIf, Bool.false_eq_true, if_false]
    omega
  | true =>
    rw [headerBf2_encodeHeader h12]
    cases h15 : r.pm1.getLsbD 15 with
    | false =>
      simp only [cond_true, Bool.true_and, sizeIf, Bool.false_eq_true, if_false, if_true]
      omega
    | true =>
      obtain ⟨hlt, hlen⟩ := htext h15
      rw [headerByte_encodeHeader h12 h15, lengthByte_toNat hlt hlen]
      simp only [cond_true, Bool.true_and, sizeIf, if_true, Config.textCap]
      omega

end Sys2Proof.Machine
end

section
/-! # The two checksums: what the dual-sum is and detects, and the verdict of the XOR check -/

namespace Sys2Proof.Machine

/-! ## The dual-sum -/

/-- Both sums stay reduced modulo 255 (R140). -/
theorem foldl_dualSumStep_lt (l : List Byte) :
    (l.foldl dualSumStep (0, 0)).1 < 255 ∧ (l.foldl dualSumStep (0, 0)).2 < 255 := by
  induction l using List.reverseRecOn with
  | nil => decide
  | append_singleton l b =>
    rw [List.foldl_concat]
    exact ⟨Nat.mod_lt _ (by decide), Nat.mod_lt _ (by decide)⟩

/-- The sums fit their bytes, so nothing of them is cut off. -/
theorem dualSum_toNat (l : List Byte) :
    ((dualSum l).1.toNat, (dualSum l).2.toNat) = l.foldl dualSumStep (0, 0) := by
  obtain ⟨h1, h2⟩ := foldl_dualSumStep_lt l
  refine Prod.ext (Nat.mod_eq_of_lt (?_ : _ < 2 ^ 8)) (Nat.mod_eq_of_lt (?_ : _ < 2 ^ 8)) <;> omega

/-- One more byte (R140). -/
theorem dualSum_concat (l : List Byte) (b : Byte) :
    (dualSum (l ++ [b])).1.toNat = ((dualSum l).1.toNat + b.toNat) % 255 ∧
    (dualSum (l ++ [b])).2.toNat = ((dualSum l).2.toNat + (dualSum (l ++ [b])).1.toNat) % 255 := by
  have h := dualSum_toNat (l ++ [b])
  rw [List.foldl_concat, ← dualSum_toNat l, dualSumStep, Prod.mk.injEq] at h
  obtain ⟨h1, h2⟩ := h
  exact ⟨h1, h1 ▸ h2⟩

/-- The first sum is the sum of the bytes modulo 255. -/
theorem dualSum_fst_toNat (l : List Byte) : (dualSum l).1.toNat = (l.map BitVec.toNat).sum % 255 := by
  induction l using List.reverseRecOn with
  | nil => rfl
  | append_singleton l b ih =>
    rw [(dualSum_concat l b).1, ih, Nat.mod_add_mod]
    simp

/-- A change of one byte that the first sum does not see is one by a multiple of 255 (R145). -/
theorem mod_eq_of_dualSum_fst_eq {pre post : List Byte} {b c : Byte}
    (h : (dualSum (pre ++ b :: post)).1 = (dualSum (pre ++ c :: post)).1) : b.toNat % 255 = c.toNat % 255 := by
  have h := congrArg BitVec.toNat h
  simp only [dualSum_fst_toNat, List.map_append, List.map_cons, List.sum_append, List.sum_cons] at h
  omega

/-- The two bytes that are 0 modulo 255 add the same to both sums. -/
theorem dualSumStep_zero_eq_ff (s : Nat × Nat) : dualSumStep s 0x00 = dualSumStep s 0xFF := by
  have h : (s.1 + (0x00 : Byte).toNat) % 255 = (s.1 + (0xFF : Byte).toNat) % 255 := (Nat.add_mod_right s.1 255).symm
  rw [dualSumStep, dualSumStep, h]

theorem dualSum_zero_eq_ff (pre post : List Byte) : dualSum (pre ++ 0x00 :: post) = dualSum (pre ++ 0xFF :: post) := by
  simp only [dualSum, List.foldl_append, List.foldl_cons, dualSumStep_zero_eq_ff]

/-- A frame is valid exactly when its two checksum bytes are the dual-sum of the bytes before them (R143). -/
theorem frameValid_append_iff (body : List Byte) (c1 c2 : Byte) :
    frameValid (body ++ [c1, c2]) = true ↔ (c1, c2) = dualSum body := by
  simp [frameValid, Prod.ext_iff]

/-- Settles O46: the sums byte by byte; the first is the sum of the bytes modulo 255; and a body has one valid pair of
checksum bytes. -/
theorem dualSumSensitivity : Obligations.DualSumSensitivity := by
  refine ⟨rfl, dualSum_concat, fun _ _ _ _ hne h => hne (mod_eq_of_dualSum_fst_eq h), dualSum_zero_eq_ff, ?_⟩
  intro body c1 c2 d1 d2 hvalid hne
  rw [frameValid_append_iff] at hvalid
  rw [Bool.eq_false_iff, ne_eq, frameValid_append_iff, ← hvalid]
  exact hne.symm

/-! ## The XOR check -/

/-- The check of a suffix (R146): its digits are there, and their value is the XOR of the bytes before the '*'. -/
theorem xorPasses_iff {c ds rest : List Byte} {k : Nat} (hsplit : c.drop (k + 1) = ds ++ rest)
    (hds : ∀ d ∈ ds, isDigit d = true) (hrest : StopsDigits rest) :
    xorPasses c k = true ↔ ds ≠ [] ∧ decimalValue ds = (xorSum (c.take k)).toNat := by
  have hrun : digitRun 0 0 (c.drop (k + 1)) = (decimalValue ds, ds.length, rest) := by
    rw [hsplit, digitRun_append 0 0 ds rest hds hrest, Nat.zero_add]
    rfl
  simp [xorPasses, hrun]

/-- A row of an ASCII decode by itself, on a line inside acc. -/
theorem asciiRow_eq {s : State} (row : List Byte → Work → Work) (h : s.work.len ≤ s.params.accLen) :
    asciiRow s row = .next (s.afterRow (row s.content s.work)) :=
  asciiRow_next.2 ⟨h, rfl⟩

theorem content_take_len (s : State) : s.content.take s.work.len = s.content :=
  List.take_of_length_le (Memory.slice_length ..).le

/-- The row of '*' on a line without one (R191). -/
theorem rowChecksumStar_of_none {c : List Byte} (w : Work) (h : findByte chStar c = none) :
    rowChecksumStar c w = { w with star := none, bodyEnd := c.length, xorBad := false } := by
  rw [rowChecksumStar, h]

/-- The row of '*' on a line that has one (R146, R191). -/
theorem rowChecksumStar_of_some {c : List Byte} (w : Work) {k : Nat} (h : findByte chStar c = some k) :
    rowChecksumStar c w = { w with star := some k, bodyEnd := k, xorBad := !xorPasses c k } := by
  rw [rowChecksumStar, h]

/-- Settles O47: the row by whether the line has a '*', and its verdict by the digits after it. -/
theorem checksumStarRow : Obligations.ChecksumStarRow := by
  intro s hlen
  have hexec : exec .checksumStar s = .next (s.afterRow (rowChecksumStar s.content s.work)) := asciiRow_eq _ hlen
  refine ⟨fun habsent => ?_, fun k ds rest hfirst hsplit hds hrest => ⟨!xorPasses s.content k, ?_, ?_⟩⟩
  · have hnone : findByte chStar s.content = none := content_take_len s ▸ findByte_take_eq_none.2 habsent
    have hlength : s.content.length = s.work.len := Memory.slice_length ..
    rw [hexec, rowChecksumStar_of_none s.work hnone, hlength]
  · rw [Bool.not_eq_false']
    exact xorPasses_iff hsplit hds hrest
  · have hsome : findByte chStar s.content = some k := content_take_len s ▸ findByte_take_eq_some.2 hfirst
    rw [hexec, rowChecksumStar_of_some s.work hsome]

end Sys2Proof.Machine
end

section
/-! # The errors of an ASCII line: their order, and the sensitivity of its checksum -/

namespace Sys2Proof.Machine

/-! ## The order of the errors -/

/-- The exemptions of R148. -/
theorem checksumExempt_iff (r : Record) (src : Bool) : checksumExempt r src = true ↔
    (r.pm1.getLsbD 1 = true ∧ r.mCode = some 110) ∨ r.pm1.getLsbD 15 = true ∨ src = true := by
  simp only [checksumExempt, Record.isLineReset, Record.hasText, Config.lineResetCode, Bool.or_eq_true,
    Bool.and_eq_true, beq_iff_eq, or_assoc]

/-- A '*' is there and its check failed (R146). -/
def Work.badStar (w : Work) : Bool := w.star.isSome && w.xorBad

theorem Work.badStar_iff (w : Work) : w.badStar = true ↔ w.star ≠ none ∧ w.xorBad = true := by
  rw [badStar, Bool.and_eq_true, Option.isSome_iff_ne_none]

/-- No '*' is there, and the line needs one (R148). -/
def Work.missingStar (w : Work) (mandatory src : Bool) : Bool :=
  w.star.isNone && (mandatory && !checksumExempt w.cmd src)

theorem Work.missingStar_iff (w : Work) (mandatory src : Bool) : w.missingStar mandatory src = true ↔
    w.star = none ∧ mandatory = true ∧
      ¬ ((w.cmd.pm1.getLsbD 1 = true ∧ w.cmd.mCode = some 110) ∨ w.cmd.pm1.getLsbD 15 = true ∨ src = true) := by
  rw [missingStar, Bool.and_eq_true, Bool.and_eq_true, Option.isNone_iff_eq_none, Bool.not_eq_true', Bool.eq_false_iff,
    ne_eq, checksumExempt_iff]

/-- None of M, G and T is there. -/
def Record.noCommand (r : Record) : Bool := !r.pm1.getLsbD 1 && !r.pm1.getLsbD 2 && !r.pm1.getLsbD 9

theorem Record.noCommand_iff (r : Record) :
    r.noCommand = true ↔ r.pm1.getLsbD 1 = false ∧ r.pm1.getLsbD 2 = false ∧ r.pm1.getLsbD 9 = false := by
  simp only [noCommand, Bool.and_eq_true, Bool.not_eq_true', and_assoc]

/-- The first of four checks that applies decides the kind (R213). -/
def firstError (bad missing raw noCommand : Bool) : Option ErrorKind :=
  if bad then some .checksumMismatch
  else if missing then some .missingChecksum
  else if raw then some .fieldFormatError
  else if noCommand then some .missingRequiredField
  else none

/-- Each kind by its own condition, where the first two checks exclude each other. -/
theorem firstError_iff {bad missing : Bool} (hexcl : bad = true → missing = false) (raw noCommand : Bool) :
    let kind := firstError bad missing raw noCommand
    (kind = some .checksumMismatch ↔ bad = true) ∧
    (kind = some .missingChecksum ↔ missing = true) ∧
    (kind = some .fieldFormatError ↔ ¬ bad = true ∧ ¬ missing = true ∧ raw = true) ∧
    (kind = some .missingRequiredField ↔ ¬ bad = true ∧ ¬ missing = true ∧ raw = false ∧ noCommand = true) ∧
    (kind = none ↔ ¬ bad = true ∧ ¬ missing = true ∧ raw = false ∧ ¬ noCommand = true) := by
  cases bad with
  | true => simp [firstError, hexcl rfl]
  | false =>
    cases missing with
    | true => simp [firstError]
    | false => cases raw <;> cases noCommand <;> simp [firstError]

/-- The validation is the four checks in a row (R213). -/
theorem asciiFailure_eq (mandatory src : Bool) (w : Work) : asciiFailure mandatory src w =
    firstError w.badStar (w.missingStar mandatory src) w.cmd.rawFormatError w.cmd.noCommand := by
  unfold asciiFailure checksumFailure firstError Work.badStar Work.missingStar
  cases w.star with
  | some k => cases w.xorBad <;> rfl
  | none => cases mandatory && !checksumExempt w.cmd src <;> rfl

/-- With a '*' no '*' is missing. -/
theorem Work.missingStar_of_badStar {w : Work} (mandatory src : Bool) (h : w.badStar = true) :
    w.missingStar mandatory src = false := by
  rw [missingStar, Option.isNone_eq_false_iff.2 (Bool.and_eq_true_iff.1 h).1, Bool.false_and]

/-- Settles O57: the validation is four checks in a row, of which the two of the checksum exclude each other. -/
theorem asciiErrorOrder : Obligations.AsciiErrorOrder := by
  intro mandatory src w
  dsimp only
  rw [asciiFailure_eq, ← w.badStar_iff, ← w.missingStar_iff, ← w.cmd.noCommand_iff]
  exact firstError_iff (w.missingStar_of_badStar mandatory src) ..

/-! ## The sensitivity of the XOR check -/

/-- The XOR of a body, around one of its bytes. -/
theorem xorSum_append_cons (pre post : List Byte) (b : Byte) :
    xorSum (pre ++ b :: post) = xorSum pre ^^^ b ^^^ xorSum post := by
  rw [xorSum, List.foldl_append, List.foldl_cons, ← BitVec.xor_zero (x := _ ^^^ b), List.foldl_assoc]
  simp [xorSum]

/-- Bodies that differ in one byte have different XORs. -/
theorem eq_of_xorSum_eq {pre post : List Byte} {b c : Byte}
    (h : xorSum (pre ++ b :: post) = xorSum (pre ++ c :: post)) : b = c := by
  rwa [xorSum_append_cons, xorSum_append_cons, BitVec.xor_left_inj, BitVec.xor_right_inj] at h

/-- The whole decode keeps what the row of '*' found (R190). -/
theorem asciiDecode_star (c : List Byte) :
    (asciiDecode c).star = findByte chStar c ∧
    (asciiDecode c).xorBad = (findByte chStar c).any fun k => !xorPasses c k := by
  simp only [asciiDecode, asciiRows, List.foldl, asciiHead_eq, letterRows_eq]
  rw [textRows_eq _ _ rfl]
  split <;> exact ⟨rfl, rfl⟩

/-- A line fails with ChecksumMismatch exactly when its check does not pass at its first '*' (R213 step 1). -/
theorem asciiFailure_asciiDecode_of_star {c : List Byte} {k : Nat} (mandatory src : Bool)
    (hstar : findByte chStar c = some k) :
    asciiFailure mandatory src (asciiDecode c) = some .checksumMismatch ↔ xorPasses c k = false := by
  obtain ⟨hs, hx⟩ := asciiDecode_star c
  obtain ⟨hmismatch, -⟩ := asciiErrorOrder mandatory src (asciiDecode c)
  rw [hmismatch, hs, hx, hstar]
  simp

/-- The '*' after a body is the line's first. -/
theorem findByte_star_append {body : List Byte} (suffix : List Byte) (h : ∀ x ∈ body, x ≠ 0x2A) :
    findByte chStar (body ++ 0x2A :: suffix) = some body.length := by
  refine findByte_some (by simp [chStar]) fun q hq he => ?_
  rw [List.getElem?_append_left hq] at he
  exact h _ (List.mem_of_getElem? he) rfl

/-- The suffix alone decides which XOR of a body passes. -/
theorem toNat_xorSum_of_xorPasses {body suffix : List Byte}
    (h : xorPasses (body ++ 0x2A :: suffix) body.length = true) :
    (xorSum body).toNat = (digitRun 0 0 suffix).1 := by
  have hdrop : (body ++ 0x2A :: suffix).drop (body.length + 1) = suffix := by simp
  simp only [xorPasses, hdrop, List.take_left, Bool.and_eq_true, decide_eq_true_eq] at h
  exact h.2.symm

/-- Settles O48: the suffix admits one XOR, and bodies that differ in one byte have two. -/
theorem xorSensitivity : Obligations.XorSensitivity := by
  intro pre post suffix b c mandatory src hne hc hbody hpassed
  have hbody' : ∀ x ∈ pre ++ c :: post, x ≠ 0x2A := by
    simp only [List.forall_mem_append, List.forall_mem_cons] at hbody ⊢
    exact ⟨hbody.1, hc, hbody.2.2⟩
  rw [ne_eq, asciiFailure_asciiDecode_of_star _ _ (findByte_star_append suffix hbody), Bool.not_eq_false] at hpassed
  rw [asciiFailure_asciiDecode_of_star _ _ (findByte_star_append suffix hbody'), Bool.eq_false_iff]
  intro hpasses
  have hxor : xorSum (pre ++ b :: post) = xorSum (pre ++ c :: post) := BitVec.eq_of_toNat_eq <| calc
    (xorSum (pre ++ b :: post)).toNat = (digitRun 0 0 suffix).1 := toNat_xorSum_of_xorPasses hpassed
    _ = (xorSum (pre ++ c :: post)).toNat := (toNat_xorSum_of_xorPasses hpasses).symm
  exact hne (eq_of_xorSum_eq hxor)

end Sys2Proof.Machine
end

section
/-! # The rows of a binary decode by themselves: what each reads, and what it leaves -/

namespace Sys2Proof.Machine

/-! ## Masks -/

/-- A bit written, at any bit. -/
theorem putBit_getLsbD (v : Half) (i : Nat) (b : Bool) {k : Nat} (hk : k < 16) :
    (putBit v i b).getLsbD k = if k = i then b else v.getLsbD k := by
  by_cases hki : k = i
  · subst hki
    cases b <;> simp [putBit, hk]
  · have : ¬ k - i = 0 ∨ k < i := by omega
    cases b <;> simp [putBit, hk, hki] <;> omega

/-- A bit copied, at any bit. -/
theorem copyBit_getLsbD (src dst : Half) (i : Nat) {k : Nat} (hk : k < 16) :
    (copyBit src dst i).getLsbD k = if k = i then src.getLsbD k else dst.getLsbD k := by
  rw [copyBit, putBit_getLsbD _ _ _ hk]
  split
  next h => rw [h]
  · rfl

/-! ## What a field reads -/

/-- The two bytes at `off`, little-endian (R62). -/
def Memory.half (m : List Host.Cell) (off : Nat) : Half := Memory.read m (off + 1) ++ Memory.read m off

/-- The four bytes at `off`, little-endian (R62). -/
def Memory.word (m : List Host.Cell) (off : Nat) : Word :=
  Memory.read m (off + 3) ++ Memory.read m (off + 2) ++ Memory.read m (off + 1) ++ Memory.read m off

/-- The M or G code at `off` (R165, R166). -/
def Memory.code (v2 : Bool) (m : List Host.Cell) (off : Nat) : Half :=
  if v2 then Memory.half m off else (Memory.read m off).zeroExtend 16

/-- A reader that takes the `n` bytes at `off`, whose value is `v`, when they lie in acc. -/
def Takes {α : Type} (size : Nat) (w : Work) (n : Nat) (put : Record → α → Record) (v : α) (x : Except Fault Work) :
    Prop :=
  w.off + n ≤ size → x = .ok { w with off := w.off + n, cmd := put w.cmd v }

theorem wordField_takes {size : Nat} {m : List Host.Cell} {put : Record → Word → Record} (w : Work) :
    Takes size w 4 put (Memory.word m w.off) (wordField size m w put) := wordField_eq m put

theorem halfField_takes {size : Nat} {m : List Host.Cell} {put : Record → Half → Record} (w : Work) :
    Takes size w 2 put (Memory.half m w.off) (halfField size m w put) := halfField_eq m put

theorem byteField_takes {size : Nat} {m : List Host.Cell} {put : Record → Byte → Record} (w : Work) :
    Takes size w 1 put (Memory.read m w.off) (byteField size m w put) := byteField_eq m put

theorem codeField_takes {size : Nat} {m : List Host.Cell} {put : Record → Half → Record} (w : Work) :
    Takes size w (if w.v2 then 2 else 1) put (Memory.code w.v2 m w.off) (codeField size m w put) := by
  unfold codeField Memory.code
  cases w.v2
  case false => exact byteField_takes (put := fun c v => put c (v.zeroExtend 16)) w
  case true => exact halfField_takes w

theorem State.littleEndian_one (s : State) (off : Nat) : (Memory.read s.acc off).toNat = s.littleEndian off 1 := by
  simp [State.littleEndian]

theorem State.littleEndian_two (s : State) (off : Nat) : (Memory.half s.acc off).toNat = s.littleEndian off 2 := by
  simp only [Memory.half, State.littleEndian, BitVec.toNat_append]
  rw [← Nat.shiftLeft_add_eq_or_of_lt (BitVec.isLt _), Nat.shiftLeft_eq]
  omega

theorem State.littleEndian_four (s : State) (off : Nat) : (Memory.word s.acc off).toNat = s.littleEndian off 4 := by
  simp only [Memory.word, State.littleEndian, BitVec.toNat_append]
  iterate 3 rw [← Nat.shiftLeft_add_eq_or_of_lt (BitVec.isLt _), Nat.shiftLeft_eq]
  rw [show off + 3 = off + 1 + 1 + 1 from rfl, show off + 2 = off + 1 + 1 from rfl]
  omega

/-! ## The rows by themselves -/

/-- The effect of a row of bitfield-1 whose reader takes `n` bytes of value `val`. -/
theorem fieldEffect_of_takes {width : Nat} {i : Instr} (bit : Nat) {mask : Record → Bool → Record} {n : State → Nat}
    {put : Record → BitVec width → Record} {val : State → BitVec width} {read : State → Except Fault Work}
    (hexec : ∀ s, exec i s =
      finishRow s (fieldIf (s.work.bf1.getLsbD bit) (s.work.present1 bit) (read s)))
    (hmask : ∀ c b, mask c b = { c with pm1 := putBit c.pm1 bit b })
    (htakes : ∀ s, Takes s.params.accLen (s.work.present1 bit) (n s) put (val s) (read s))
    (hval : ∀ s, (val s).toNat = s.littleEndian s.work.off (n s)) :
    FieldEffect i (fun s => s.work.bf1.getLsbD bit) mask n put := by
  intro s
  have hwork (b : Bool) (hb : s.work.bf1.getLsbD bit = b) :
      s.work.present1 bit = { s.work with cmd := mask s.work.cmd b } := by
    rw [hmask, ← hb]
    rfl
  refine ⟨fun (hb : s.work.bf1.getLsbD bit = false) => ?clear,
    fun (hb : s.work.bf1.getLsbD bit = true) hoff => ⟨val s, hval s, ?set⟩⟩
  case clear => rw [hexec, hb, hwork false hb]; rfl
  case set => rw [hexec, hb, fieldIf_eq, if_pos rfl, htakes s hoff, hwork true hb]; rfl

/-- A row of bitfield-1 with a 4-byte field. -/
theorem fieldEffect_word {i : Instr} (bit : Nat) {mask : Record → Bool → Record} {put : Record → Word → Record}
    (hexec : ∀ s, exec i s = finishRow s (fieldIf (s.work.bf1.getLsbD bit) (s.work.present1 bit)
      (wordField s.params.accLen s.acc (s.work.present1 bit) put)))
    (hmask : ∀ c b, mask c b = { c with pm1 := putBit c.pm1 bit b }) :
    FieldEffect i (fun s => s.work.bf1.getLsbD bit) mask (fun _ => 4) put :=
  fieldEffect_of_takes bit hexec hmask (fun s => wordField_takes (s.work.present1 bit)) fun s => s.littleEndian_four _

/-- A row of bitfield-1 with an M or G code. -/
theorem fieldEffect_code {i : Instr} (bit : Nat) {mask : Record → Bool → Record} {put : Record → Half → Record}
    (hexec : ∀ s, exec i s = finishRow s (fieldIf (s.work.bf1.getLsbD bit) (s.work.present1 bit)
      (codeField s.params.accLen s.acc (s.work.present1 bit) put)))
    (hmask : ∀ c b, mask c b = { c with pm1 := putBit c.pm1 bit b }) :
    FieldEffect i (fun s => s.work.bf1.getLsbD bit) mask (fun s => if s.work.bf1.getLsbD 12 then 2 else 1) put :=
  fieldEffect_of_takes (val := fun s => Memory.code s.work.v2 s.acc s.work.off) bit hexec hmask
    (fun s => codeField_takes (s.work.present1 bit)) fun s => by
      unfold Memory.code Work.v2
      cases s.work.bf1.getLsbD 12 with
      | false => exact (BitVec.toNat_setWidth_of_le (by decide)).trans (s.littleEndian_one _)
      | true => exact s.littleEndian_two _

/-- Settles O38: N by two bytes widened, M and G by their width. -/
theorem numberFieldRows : Obligations.NumberFieldRows :=
  ⟨fieldEffect_of_takes (val := fun s => (Memory.half s.acc s.work.off).zeroExtend 32) 0 (fun _ => rfl)
      (fun _ _ => rfl)
      (fun s => halfField_takes (put := fun c v => { c with lineNumber := some (v.zeroExtend 32) }) (s.work.present1 0))
      fun s => (BitVec.toNat_setWidth_of_le (by decide)).trans (s.littleEndian_two _),
    fieldEffect_code 1 (fun _ => rfl) fun _ _ => rfl,
    fieldEffect_code 2 (fun _ => rfl) fun _ _ => rfl⟩

/-- Settles O39: seven fields of four bytes, and the tool index of one. -/
theorem valueFieldRows : Obligations.ValueFieldRows :=
  ⟨fieldEffect_word 3 (fun _ => rfl) fun _ _ => rfl,
    fieldEffect_word 4 (fun _ => rfl) fun _ _ => rfl,
    fieldEffect_word 5 (fun _ => rfl) fun _ _ => rfl,
    fieldEffect_word 6 (fun _ => rfl) fun _ _ => rfl,
    fieldEffect_word 8 (fun _ => rfl) fun _ _ => rfl,
    fieldEffect_of_takes 9 (fun _ => rfl) (fun _ _ => rfl) (fun s => byteField_takes (s.work.present1 9)) fun s =>
      s.littleEndian_one _,
    fieldEffect_word 10 (fun _ => rfl) fun _ _ => rfl,
    fieldEffect_word 11 (fun _ => rfl) fun _ _ => rfl⟩

/-- A row of bitfield-2, which reads its field in a V2 frame alone. -/
theorem arcRow_effect {i : Instr} (k : Nat) {put : Record → Word → Record}
    (hexec : ∀ s, exec i s = finishRow s (fieldIf (s.work.v2 && s.work.bf2.getLsbD k) (s.work.present2 k)
      (wordField s.params.accLen s.acc (s.work.present2 k) put))) (s : State) :
    ∃ mask : Half,
      (∀ n < 16, mask.getLsbD n = (if n = k then s.work.bf2.getLsbD n else s.work.cmd.pm2.getLsbD n)) ∧
      ((s.work.bf1.getLsbD 12 = false ∨ s.work.bf2.getLsbD k = false) →
        exec i s = .next (s.afterRow { s.work with cmd := { s.work.cmd with pm2 := mask } })) ∧
      (s.work.bf1.getLsbD 12 = true → s.work.bf2.getLsbD k = true → s.work.off + 4 ≤ s.params.accLen →
        ∃ v : Word, v.toNat = s.littleEndian s.work.off 4 ∧
          exec i s = .next (s.afterRow { s.work with
            off := s.work.off + 4
            cmd := put { s.work.cmd with pm2 := mask } v })) := by
  refine ⟨copyBit s.work.bf2 s.work.cmd.pm2 k, fun n hn => copyBit_getLsbD _ _ _ hn, fun hclear => ?_,
    fun h12 hk hoff => ⟨Memory.word s.acc s.work.off, s.littleEndian_four _, ?_⟩⟩
  · have hpresent : (s.work.v2 && s.work.bf2.getLsbD k) = false := Bool.and_eq_false_iff.2 hclear
    rw [hexec, hpresent]
    rfl
  · have hpresent : (s.work.v2 && s.work.bf2.getLsbD k) = true := Bool.and_eq_true_iff.2 ⟨h12, hk⟩
    rw [hexec, hpresent, fieldIf_eq, if_pos rfl, wordField_takes (s.work.present2 k) hoff]
    rfl

/-- Settles O40: the three rows are one row over its bit. -/
theorem arcFieldRows : Obligations.ArcFieldRows := by
  intro s k _ i put hrow
  rcases hrow with ⟨rfl, rfl, rfl⟩ | ⟨rfl, rfl, rfl⟩ | ⟨rfl, rfl, rfl⟩
  · exact arcRow_effect (i := .bf2I) 0 (fun _ => rfl) s
  · exact arcRow_effect (i := .bf2J) 1 (fun _ => rfl) s
  · exact arcRow_effect (i := .bf2R) 2 (fun _ => rfl) s

/-- Settles O37: each of the first three rows copies one bit, and BF2_RSV joins two disjoint parts. -/
theorem markerRows : Obligations.MarkerRows := by
  intro s
  refine ⟨copyBit s.work.bf1 s.work.cmd.pm1 7, copyBit s.work.bf1 s.work.cmd.pm1 13,
    copyBit s.work.bf1 s.work.cmd.pm1 14, (s.work.cmd.pm2 &&& 0x0007) ||| (s.work.bf2 &&& 0xFFF8), rfl, rfl, rfl, rfl,
    fun k hk => ⟨copyBit_getLsbD _ _ _ hk, copyBit_getLsbD _ _ _ hk, copyBit_getLsbD _ _ _ hk, ?_⟩⟩
  have hlow : ∀ k < 16, (0x0007 : Half).getLsbD k = !decide (3 ≤ k) := by decide
  have hhigh : ∀ k < 16, (0xFFF8 : Half).getLsbD k = decide (3 ≤ k) := by decide
  rw [BitVec.getLsbD_or, BitVec.getLsbD_and, BitVec.getLsbD_and, hlow k hk, hhigh k hk]
  by_cases h3 : 3 ≤ k <;> simp [h3]

/-- Settles O36: both rows read bitfield-1 and look at its bit 12. -/
theorem headerRows : Obligations.HeaderRows := by
  intro s
  have hacc := maxFrame_le_accLen s.params
  have h0 : memRead2 s.params.accLen s.acc 0 = .ok (Memory.half s.acc 0) := memRead2_eq s.acc (by omega)
  have h2 : memRead2 s.params.accLen s.acc 2 = .ok (Memory.half s.acc 2) := memRead2_eq s.acc (by omega)
  have h4 : memRead1 s.params.accLen s.acc 4 = .ok (Memory.read s.acc 4) := memRead1_eq s.acc (by omega)
  have hv1 : exec .bf1V1 s = finishRow s (rowBf1V1 s.params.accLen s.acc s.work) := rfl
  have hv2 : exec .bf1V2 s = finishRow s (rowBf1V2 s.params.accLen s.acc s.work) := rfl
  refine ⟨Memory.half s.acc 0, Memory.half s.acc 2, s.littleEndian_two 0, s.littleEndian_two 2, fun h12 => ?v1,
    fun h12 => ?v2⟩
  all_goals simp only [hv1, hv2, rowBf1V1, rowBf1V2, h0, h2, h4, h12]
  case v1 => exact ⟨rfl, rfl⟩
  case v2 => cases (Memory.half s.acc 0).getLsbD 15 <;> exact ⟨rfl, rfl⟩

/-- Settles O41: each row by its version bit and bit 15. -/
theorem textRows : Obligations.TextRows := by
  intro s hoff
  have hstart : (BitVec.ofNat 8 s.work.off).toNat = s.work.off := Nat.mod_eq_of_lt hoff
  have hv1 : exec .bf1TextV1 s = .next (s.afterRow (rowBf1TextV1 s.work)) := rfl
  have hv2 : exec .bf1TextV2 s = .next (s.afterRow (rowBf1TextV2 s.work)) := rfl
  refine ⟨copyBit s.work.bf1 s.work.cmd.pm1 15, fun n hn => copyBit_getLsbD _ _ _ hn, fun h15 h12 => ?_, fun h => ?_,
    fun tl h15 h12 htl => ?_, fun h => ?_⟩
  · refine ⟨BitVec.ofNat 8 s.work.off, 16, hstart, rfl, ?_⟩
    rw [hv1, rowBf1TextV1]
    simp [-BitVec.getLsbD_eq_getElem, Work.present1, Work.v2, h15, h12, Config.textV1]
  · rw [hv1, rowBf1TextV1]
    rcases h with h | h <;> simp [-BitVec.getLsbD_eq_getElem, Work.present1, Work.v2, h]
  · have hlen : (BitVec.ofNat 8 (textV2Len (some tl))).toNat = min tl.toNat 79 :=
      Nat.mod_eq_of_lt (Nat.lt_of_le_of_lt (Nat.min_le_right ..) (by decide))
    refine ⟨BitVec.ofNat 8 s.work.off, BitVec.ofNat 8 (textV2Len (some tl)), hstart, hlen, ?_⟩
    rw [hv2, rowBf1TextV2]
    simp [-BitVec.getLsbD_eq_getElem, Work.present1, Work.v2, h15, h12, htl, textV2Len, Config.textCap]
  · rw [hv2, rowBf1TextV2]
    rcases h with h | h <;> simp [-BitVec.getLsbD_eq_getElem, Work.present1, Work.v2, h]

end Sys2Proof.Machine
end

section
/-! # A binary frame as a whole: the record its bytes give, and the round trip with the encoder -/

namespace Sys2Proof.Machine

/-! ## The layout of a frame -/

/-- The bytes before the first field: the bitfields, and the length byte of a V2 text (R161 to R163). -/
def headerLength (bf1 : Half) : Nat :=
  2 + sizeIf (bf1.getLsbD 12) 2 + sizeIf (bf1.getLsbD 12 && bf1.getLsbD 15) 1

/-- The bytes an M or G code has (R165, R166). -/
def codeLength (bf1 : Half) : Nat := if bf1.getLsbD 12 then 2 else 1

/-- The bytes of each field on the wire, none for an absent one, in wire order (R164 to R177). -/
def fieldLengths (bf1 bf2 : Half) : List Nat :=
  [sizeIf (bf1.getLsbD 0) 2, sizeIf (bf1.getLsbD 1) (codeLength bf1), sizeIf (bf1.getLsbD 2) (codeLength bf1),
   sizeIf (bf1.getLsbD 3) 4, sizeIf (bf1.getLsbD 4) 4, sizeIf (bf1.getLsbD 5) 4, sizeIf (bf1.getLsbD 6) 4,
   sizeIf (bf1.getLsbD 8) 4, sizeIf (bf1.getLsbD 9) 1, sizeIf (bf1.getLsbD 10) 4, sizeIf (bf1.getLsbD 11) 4,
   sizeIf (bf1.getLsbD 12 && bf2.getLsbD 0) 4, sizeIf (bf1.getLsbD 12 && bf2.getLsbD 1) 4,
   sizeIf (bf1.getLsbD 12 && bf2.getLsbD 2) 4]

/-- Where the `k`-th field begins. -/
def fieldOffset (bf1 bf2 : Half) (k : Nat) : Nat := headerLength bf1 + ((fieldLengths bf1 bf2).take k).sum

theorem fieldOffset_succ (bf1 bf2 : Half) {k : Nat} (hk : k < 14) :
    fieldOffset bf1 bf2 (k + 1) = fieldOffset bf1 bf2 k + (fieldLengths bf1 bf2)[k]'hk := by
  rw [fieldOffset, fieldOffset, List.sum_take_succ _ _ hk, Nat.add_assoc]

/-- A field has at most four bytes. -/
theorem fieldLengths_le (bf1 bf2 : Half) : ∀ n ∈ fieldLengths bf1 bf2, n ≤ 4 := by
  have hcode : codeLength bf1 ≤ 4 := by
    unfold codeLength
    split <;> decide
  have hitem (b : Bool) {n : Nat} (hn : n ≤ 4) : sizeIf b n ≤ 4 := (sizeIf_le b n).trans hn
  simp [fieldLengths, hitem, hcode]

/-- The fields, and a text after them, begin within 61 bytes. -/
theorem fieldOffset_le (bf1 bf2 : Half) (k : Nat) : fieldOffset bf1 bf2 k ≤ 61 := by
  have hsum := List.sum_le_card_nsmul _ 4 fun n hn => fieldLengths_le bf1 bf2 n (List.mem_of_mem_take (i := k) hn)
  have hlen : ((fieldLengths bf1 bf2).take k).length ≤ 14 := (List.take_sublist ..).length_le
  have h2 := sizeIf_le (bf1.getLsbD 12) 2
  have h1 := sizeIf_le (bf1.getLsbD 12 && bf1.getLsbD 15) 1
  rw [smul_eq_mul] at hsum
  unfold fieldOffset headerLength
  omega

/-! ## The rows, one after another -/

/-- A decode in progress whose first `k` fields have been read. -/
def fieldsRead (bf1 bf2 : Half) (tl : Option Byte) (k : Nat) (cmd : Record) : Work :=
  { off := fieldOffset bf1 bf2 k, bf1, bf2, tl, cmd }

/-- A field row, in a decode that has read the fields before. -/
theorem fieldIf_fieldsRead {α : Type} {size : Nat} {bf1 bf2 : Half} {tl : Option Byte} {k n : Nat} {cmd cmd' : Record}
    {present : Bool} {v : α} {read : Except Fault Work} (set : Record → Option α → Record)
    (htakes : Takes size (fieldsRead bf1 bf2 tl k cmd) n (fun c v => set c (some v)) v read) (hsize : 133 ≤ size)
    (hnone : set cmd none = cmd) (hset : set cmd (keepIf present (some v)) = cmd') (hk : k < 14)
    (hlen : (fieldLengths bf1 bf2)[k]'hk = sizeIf present n) :
    fieldIf present (fieldsRead bf1 bf2 tl k cmd) read = .ok (fieldsRead bf1 bf2 tl (k + 1) cmd') := by
  have hsucc := fieldOffset_succ bf1 bf2 hk
  have hle := fieldOffset_le bf1 bf2 (k + 1)
  rw [hlen] at hsucc
  subst hset
  cases present with
  | false =>
    have hoff : fieldOffset bf1 bf2 (k + 1) = fieldOffset bf1 bf2 k := hsucc
    rw [fieldsRead, fieldsRead, hoff, keepIf, if_neg Bool.false_ne_true, hnone]
    rfl
  | true =>
    have hoff : fieldOffset bf1 bf2 (k + 1) = fieldOffset bf1 bf2 k + n := hsucc
    have hin : fieldOffset bf1 bf2 k + n ≤ size := by omega
    rw [fieldIf_eq, if_pos rfl, htakes hin, fieldsRead, fieldsRead, hoff]
    rfl

theorem runRows_of_ok {w w' : Work} {row : Work → Except Fault Work} (rows : List (Work → Except Fault Work))
    (h : row w = .ok w') : runRows w (row :: rows) = runRows w' rows := by
  rw [runRows, h]

/-- A row of bitfield-1, in a decode that has read the fields before. -/
theorem runRows_row1 {α : Type} {size : Nat} {bf1 bf2 : Half} {tl : Option Byte} {n : Nat} {cmd cmd' : Record} {v : α}
    {row : Work → Except Fault Work} {rows : List (Work → Except Fault Work)} {read : Except Fault Work} (i k : Nat)
    (set : Record → Option α → Record)
    (hrow : row (fieldsRead bf1 bf2 tl k cmd) =
      fieldIf (bf1.getLsbD i) ((fieldsRead bf1 bf2 tl k cmd).present1 i) read)
    (htakes : Takes size ((fieldsRead bf1 bf2 tl k cmd).present1 i) n (fun c v => set c (some v)) v read)
    (hsize : 133 ≤ size) (hpm : cmd.pm1 = bf1) (hnone : set cmd none = cmd)
    (hset : set cmd (keepIf (bf1.getLsbD i) (some v)) = cmd') (hk : k < 14)
    (hlen : (fieldLengths bf1 bf2)[k]'hk = sizeIf (bf1.getLsbD i) n) :
    runRows (fieldsRead bf1 bf2 tl k cmd) (row :: rows) = runRows (fieldsRead bf1 bf2 tl (k + 1) cmd') rows := by
  rw [Work.present1_eq hpm] at hrow htakes
  exact runRows_of_ok rows (hrow.trans (fieldIf_fieldsRead set htakes hsize hnone hset hk hlen))

/-- A row of bitfield-2, in a decode that has read the fields before. -/
theorem runRows_row2 {α : Type} {size : Nat} {bf1 bf2 : Half} {tl : Option Byte} {n : Nat} {cmd cmd' : Record} {v : α}
    {row : Work → Except Fault Work} {rows : List (Work → Except Fault Work)} {read : Except Fault Work} (i k : Nat)
    (set : Record → Option α → Record)
    (hrow : row (fieldsRead bf1 bf2 tl k cmd) =
      fieldIf (bf1.getLsbD 12 && bf2.getLsbD i) ((fieldsRead bf1 bf2 tl k cmd).present2 i) read)
    (htakes : Takes size ((fieldsRead bf1 bf2 tl k cmd).present2 i) n (fun c v => set c (some v)) v read)
    (hsize : 133 ≤ size) (hpm : cmd.pm2 = bf2) (hnone : set cmd none = cmd)
    (hset : set cmd (keepIf (bf1.getLsbD 12 && bf2.getLsbD i) (some v)) = cmd') (hk : k < 14)
    (hlen : (fieldLengths bf1 bf2)[k]'hk = sizeIf (bf1.getLsbD 12 && bf2.getLsbD i) n) :
    runRows (fieldsRead bf1 bf2 tl k cmd) (row :: rows) = runRows (fieldsRead bf1 bf2 tl (k + 1) cmd') rows := by
  rw [Work.present2_eq hpm] at hrow htakes
  exact runRows_of_ok rows (hrow.trans (fieldIf_fieldsRead set htakes hsize hnone hset hk hlen))

/-- Bitfield-1 of the frame at the start of acc (R161). -/
def frameBf1 (m : List Host.Cell) : Half := Memory.half m 0

/-- Its bitfield-2, which a V1 frame does not have (R162). -/
def frameBf2 (m : List Host.Cell) : Half := if (frameBf1 m).getLsbD 12 then Memory.half m 2 else 0

/-- The length byte of its text, which a V2 frame with text alone has (R163). -/
def frameTl (m : List Host.Cell) : Option Byte :=
  keepIf ((frameBf1 m).getLsbD 12 && (frameBf1 m).getLsbD 15) (some (Memory.read m 4))

/-- The record of the frame after its first `k` field rows: each field they found there, as its bytes give it
(R164 to R177). -/
def frameRecord (m : List Host.Cell) (bf1 bf2 : Half) (k : Nat) : Record where
  pm1 := bf1
  pm2 := bf2
  lineNumber := keepIf (decide (0 < k) && bf1.getLsbD 0) (some ((Memory.half m (fieldOffset bf1 bf2 0)).zeroExtend 32))
  mCode := keepIf (decide (1 < k) && bf1.getLsbD 1) (some (Memory.code (bf1.getLsbD 12) m (fieldOffset bf1 bf2 1)))
  gCode := keepIf (decide (2 < k) && bf1.getLsbD 2) (some (Memory.code (bf1.getLsbD 12) m (fieldOffset bf1 bf2 2)))
  x := keepIf (decide (3 < k) && bf1.getLsbD 3) (some (Memory.word m (fieldOffset bf1 bf2 3)))
  y := keepIf (decide (4 < k) && bf1.getLsbD 4) (some (Memory.word m (fieldOffset bf1 bf2 4)))
  z := keepIf (decide (5 < k) && bf1.getLsbD 5) (some (Memory.word m (fieldOffset bf1 bf2 5)))
  e := keepIf (decide (6 < k) && bf1.getLsbD 6) (some (Memory.word m (fieldOffset bf1 bf2 6)))
  f := keepIf (decide (7 < k) && bf1.getLsbD 8) (some (Memory.word m (fieldOffset bf1 bf2 7)))
  toolIndex := keepIf (decide (8 < k) && bf1.getLsbD 9) (some (Memory.read m (fieldOffset bf1 bf2 8)))
  sValue := keepIf (decide (9 < k) && bf1.getLsbD 10) (some (Memory.word m (fieldOffset bf1 bf2 9)))
  pValue := keepIf (decide (10 < k) && bf1.getLsbD 11) (some (Memory.word m (fieldOffset bf1 bf2 10)))
  i := keepIf (decide (11 < k) && (bf1.getLsbD 12 && bf2.getLsbD 0)) (some (Memory.word m (fieldOffset bf1 bf2 11)))
  j := keepIf (decide (12 < k) && (bf1.getLsbD 12 && bf2.getLsbD 1)) (some (Memory.word m (fieldOffset bf1 bf2 12)))
  r := keepIf (decide (13 < k) && (bf1.getLsbD 12 && bf2.getLsbD 2)) (some (Memory.word m (fieldOffset bf1 bf2 13)))

/-- The header rows read the bitfields and the length byte, and move `off` past them (R161 to R163). -/
theorem headerRows_eq {size : Nat} {m : List Host.Cell} (hsize : 133 ≤ size)
    (rows : List (Work → Except Fault Work)) : runRows {} (rowBf1V1 size m :: rowBf1V2 size m :: rows) =
      runRows (fieldsRead (frameBf1 m) (frameBf2 m) (frameTl m) 0
        (frameRecord m (frameBf1 m) (frameBf2 m) 0)) rows := by
  have h0 : memRead2 size m 0 = .ok (frameBf1 m) := memRead2_eq m (by omega)
  have h2 : memRead2 size m 2 = .ok (Memory.half m 2) := memRead2_eq m (by omega)
  have h4 : memRead1 size m 4 = .ok (Memory.read m 4) := memRead1_eq m (by omega)
  simp only [runRows, rowBf1V1, rowBf1V2, h0, h2, h4, fieldsRead, fieldOffset, headerLength, frameBf2, frameTl, keepIf]
  cases (frameBf1 m).getLsbD 12 with
  | false => rfl
  | true => cases (frameBf1 m).getLsbD 15 <;> rfl

/-- The field rows read their fields one after another (R164 to R177). -/
theorem fieldRows_eq {size : Nat} {m : List Host.Cell} (hsize : 133 ≤ size) (bf1 bf2 : Half) (tl : Option Byte)
    (rows : List (Work → Except Fault Work)) :
    runRows (fieldsRead bf1 bf2 tl 0 (frameRecord m bf1 bf2 0))
      (rowBf1N size m :: rowBf1M size m :: rowBf1G size m :: rowBf1X size m :: rowBf1Y size m :: rowBf1Z size m
        :: rowBf1E size m :: rowBf1F size m :: rowBf1T size m :: rowBf1S size m :: rowBf1P size m :: rowBf2I size m
        :: rowBf2J size m :: rowBf2R size m :: rows) =
      runRows (fieldsRead bf1 bf2 tl 14 (frameRecord m bf1 bf2 14)) rows := by
  calc
    _ = runRows (fieldsRead bf1 bf2 tl 1 (frameRecord m bf1 bf2 1)) _ :=
      runRows_row1 0 0 (fun c v => { c with lineNumber := v }) rfl
        (halfField_takes (put := fun c v => { c with lineNumber := some (v.zeroExtend 32) }) _) hsize rfl rfl rfl
        (by decide) rfl
    _ = runRows (fieldsRead bf1 bf2 tl 2 (frameRecord m bf1 bf2 2)) _ :=
      runRows_row1 1 1 (fun c v => { c with mCode := v }) rfl (codeField_takes _) hsize rfl rfl rfl (by decide) rfl
    _ = runRows (fieldsRead bf1 bf2 tl 3 (frameRecord m bf1 bf2 3)) _ :=
      runRows_row1 2 2 (fun c v => { c with gCode := v }) rfl (codeField_takes _) hsize rfl rfl rfl (by decide) rfl
    _ = runRows (fieldsRead bf1 bf2 tl 4 (frameRecord m bf1 bf2 4)) _ :=
      runRows_row1 3 3 (fun c v => { c with x := v }) rfl (wordField_takes _) hsize rfl rfl rfl (by decide) rfl
    _ = runRows (fieldsRead bf1 bf2 tl 5 (frameRecord m bf1 bf2 5)) _ :=
      runRows_row1 4 4 (fun c v => { c with y := v }) rfl (wordField_takes _) hsize rfl rfl rfl (by decide) rfl
    _ = runRows (fieldsRead bf1 bf2 tl 6 (frameRecord m bf1 bf2 6)) _ :=
      runRows_row1 5 5 (fun c v => { c with z := v }) rfl (wordField_takes _) hsize rfl rfl rfl (by decide) rfl
    _ = runRows (fieldsRead bf1 bf2 tl 7 (frameRecord m bf1 bf2 7)) _ :=
      runRows_row1 6 6 (fun c v => { c with e := v }) rfl (wordField_takes _) hsize rfl rfl rfl (by decide) rfl
    _ = runRows (fieldsRead bf1 bf2 tl 8 (frameRecord m bf1 bf2 8)) _ :=
      runRows_row1 8 7 (fun c v => { c with f := v }) rfl (wordField_takes _) hsize rfl rfl rfl (by decide) rfl
    _ = runRows (fieldsRead bf1 bf2 tl 9 (frameRecord m bf1 bf2 9)) _ :=
      runRows_row1 9 8 (fun c v => { c with toolIndex := v }) rfl (byteField_takes _) hsize rfl rfl rfl (by decide) rfl
    _ = runRows (fieldsRead bf1 bf2 tl 10 (frameRecord m bf1 bf2 10)) _ :=
      runRows_row1 10 9 (fun c v => { c with sValue := v }) rfl (wordField_takes _) hsize rfl rfl rfl (by decide) rfl
    _ = runRows (fieldsRead bf1 bf2 tl 11 (frameRecord m bf1 bf2 11)) _ :=
      runRows_row1 11 10 (fun c v => { c with pValue := v }) rfl (wordField_takes _) hsize rfl rfl rfl (by decide) rfl
    _ = runRows (fieldsRead bf1 bf2 tl 12 (frameRecord m bf1 bf2 12)) _ :=
      runRows_row2 0 11 (fun c v => { c with i := v }) rfl (wordField_takes _) hsize rfl rfl rfl (by decide) rfl
    _ = runRows (fieldsRead bf1 bf2 tl 13 (frameRecord m bf1 bf2 13)) _ :=
      runRows_row2 1 12 (fun c v => { c with j := v }) rfl (wordField_takes _) hsize rfl rfl rfl (by decide) rfl
    _ = runRows (fieldsRead bf1 bf2 tl 14 (frameRecord m bf1 bf2 14)) _ :=
      runRows_row2 2 13 (fun c v => { c with r := v }) rfl (wordField_takes _) hsize rfl rfl rfl (by decide) rfl

/-! ## The text and the whole decode -/

/-- The bytes of a frame's text (R178, R179). -/
def textSpan (bf1 : Half) (tl : Option Byte) : Nat :=
  if bf1.getLsbD 12 then textV2Len tl else Config.textV1

/-- The two text rows together: one of them notes the text, where the frame has one (R178, R179). -/
theorem binaryTextRows_eq {w : Work} (hpm : w.cmd.pm1 = w.bf1) (hstart : w.cmd.textStart = none)
    (hlen : w.cmd.textLen = none) : rowBf1TextV2 (rowBf1TextV1 w) = { w with
      off := w.off + sizeIf (w.bf1.getLsbD 15) (textSpan w.bf1 w.tl)
      cmd := { w.cmd with
        textStart := keepIf (w.bf1.getLsbD 15) (some (BitVec.ofNat 8 w.off))
        textLen := keepIf (w.bf1.getLsbD 15) (some (BitVec.ofNat 8 (textSpan w.bf1 w.tl))) } } := by
  rw [rowBf1TextV1_eq hpm]
  cases h15 : w.bf1.getLsbD 15 with
  | false =>
    have hstart' (o : Option Byte) : keepIf false o = w.cmd.textStart := hstart.symm
    have hlen' (o : Option Byte) : keepIf false o = w.cmd.textLen := hlen.symm
    rw [Bool.and_false, cond_false, rowBf1TextV2_eq hpm, h15, Bool.and_false, cond_false, hstart', hlen']
    rfl
  | true =>
    cases h12 : w.bf1.getLsbD 12 with
    | false =>
      rw [Bool.not_false, Bool.true_and, cond_true, rowBf1TextV2_eq (by exact hpm)]
      simp only [h12, Bool.false_and, cond_false, textSpan, Bool.false_eq_true, if_false]
      rfl
    | true =>
      rw [Bool.not_true, Bool.false_and, cond_false, rowBf1TextV2_eq hpm, h12, h15, textSpan, h12]
      rfl

/-- The text of the frame at the start of acc begins after its fields. -/
def frameTextStart (m : List Host.Cell) : Nat := fieldOffset (frameBf1 m) (frameBf2 m) 14

/-- Binary decode (R160) as one equation: the fields of the frame, its text's place and length, and `off` past both. -/
theorem binaryDecode_eq {size : Nat} {m : List Host.Cell} (hsize : 133 ≤ size) : binaryDecode size m = .ok {
    off := frameTextStart m + sizeIf ((frameBf1 m).getLsbD 15) (textSpan (frameBf1 m) (frameTl m))
    bf1 := frameBf1 m
    bf2 := frameBf2 m
    tl := frameTl m
    cmd := { frameRecord m (frameBf1 m) (frameBf2 m) 14 with
      textStart := keepIf ((frameBf1 m).getLsbD 15) (some (BitVec.ofNat 8 (frameTextStart m)))
      textLen := keepIf ((frameBf1 m).getLsbD 15) (some (BitVec.ofNat 8 (textSpan (frameBf1 m) (frameTl m)))) } } := by
  rw [binaryDecode, binaryRows, headerRows_eq hsize, fieldRows_eq hsize]
  change Except.ok (rowBf2Rsv (rowBf1Internal (rowBf1Ext (rowBf1Mark (rowBf1TextV2 (rowBf1TextV1 _)))))) = _
  rw [binaryTextRows_eq rfl rfl rfl, maskRows_eq rfl rfl]
  rfl

/-! ## The frame's length -/

theorem headerBf1_slice (m : List Host.Cell) : headerBf1 (Memory.slice m 0 5) = frameBf1 m := rfl

theorem headerBf2_slice {m : List Host.Cell} (h12 : (frameBf1 m).getLsbD 12 = true) :
    headerBf2 (Memory.slice m 0 5) = frameBf2 m := by
  rw [frameBf2, if_pos h12]
  rfl

theorem textSpan_v2 {m : List Host.Cell} (h12 : (frameBf1 m).getLsbD 12 = true)
    (h15 : (frameBf1 m).getLsbD 15 = true) :
    textSpan (frameBf1 m) (frameTl m) = min (Memory.read m 4).toNat 79 := by
  rw [textSpan, if_pos h12, frameTl, h12, h15]
  rfl

/-- FS.size counts what binary decode reads, and the checksum (R121, R160). -/
theorem fsSize_slice (m : List Host.Cell) : fsSize (Memory.slice m 0 5) =
    some (frameTextStart m + sizeIf ((frameBf1 m).getLsbD 15) (textSpan (frameBf1 m) (frameTl m)) + 2) := by
  have hneed := (State.fsNeed_bounds (Memory.slice m 0 5)).2
  rw [fsSize_eq (by simp) (by simpa using hneed), headerBf1_slice]
  refine congrArg some ?_
  simp only [frameTextStart, fieldOffset, headerLength, fieldLengths, codeLength, commonSize, List.take_succ_cons,
    List.take_nil, List.sum_cons, List.sum_nil]
  cases h12 : (frameBf1 m).getLsbD 12 with
  | false =>
    simp only [textSpan, h12, Bool.false_and, cond_false, Bool.false_eq_true, if_false, sizeIf]
    omega
  | true =>
    rw [headerBf2_slice h12]
    cases h15 : (frameBf1 m).getLsbD 15 with
    | false =>
      simp only [Bool.and_false, Bool.true_and, cond_true, Bool.false_eq_true, if_true, if_false, sizeIf]
      omega
    | true =>
      rw [textSpan_v2 h12 h15]
      have hbyte : headerByte (Memory.slice m 0 5) 4 = Memory.read m 4 := rfl
      simp only [hbyte, Bool.true_and, cond_true, if_true, sizeIf, Config.textCap]
      omega

/-- Settles O44: the decode's equation, and FS.size as the count of what it reads. -/
theorem binaryDecodeCannotFail : Obligations.BinaryDecodeCannotFail := by
  intro m size hsize
  have hdecode := binaryDecode_eq (m := m) hsize
  obtain ⟨hclean, hfields, -⟩ := binaryDecode_queueable hsize hdecode
  exact ⟨_, _, hdecode, fsSize_slice m, rfl, rfl, rfl, hfields, hclean⟩

end Sys2Proof.Machine
end

section
/-! # The round trip: the decode of an encoder's frame is the record encoded (R221) -/

namespace Sys2Proof.Machine

/-! ## Bytes in memory -/

/-- The bytes of `l` stand at `off` (R62). -/
def Holds (m : List Host.Cell) (off : Nat) (l : List Byte) : Prop := ∀ k b, l[k]? = some b → Memory.read m (off + k) = b

theorem Holds.slice {m : List Host.Cell} {off : Nat} {l : List Byte} (h : Holds m off l) :
    Memory.slice m off l.length = l := by
  refine List.ext_getElem? fun k => ?_
  rw [Memory.slice_getElem?]
  split
  next hk => rw [List.getElem?_eq_getElem hk, h k _ (List.getElem?_eq_getElem hk)]
  next hk => exact (List.getElem?_eq_none (Nat.le_of_not_lt hk)).symm

theorem Holds.left {m : List Host.Cell} {off : Nat} {l l' : List Byte} (h : Holds m off (l ++ l')) : Holds m off l :=
  fun k b hk => h k b (by rw [List.getElem?_append_left (List.getElem?_eq_some_iff.1 hk).1, hk])

theorem Holds.right {m : List Host.Cell} {off : Nat} {l l' : List Byte} (h : Holds m off (l ++ l')) :
    Holds m (off + l.length) l' := fun k b hk => by
  rw [Nat.add_assoc]
  exact h _ b (by rw [List.getElem?_append_right (Nat.le_add_right ..), Nat.add_sub_cancel_left, hk])

/-- Of items one after another, each stands after the lengths of those before it. -/
theorem Holds.item {m : List Host.Cell} {off : Nat} {items : List (List Byte)} (h : Holds m off items.flatten) {k : Nat}
    (hk : k < items.length) : Holds m (off + ((items.map List.length).take k).sum) items[k] := by
  induction items generalizing off k with
  | nil => cases hk
  | cons item items ih =>
    rw [List.flatten_cons] at h
    cases k with
    | zero => exact h.left
    | succ k =>
      rw [List.map_cons, List.take_succ_cons, List.sum_cons, ← Nat.add_assoc]
      exact ih h.right (Nat.lt_of_succ_lt_succ hk)

theorem Holds.byte {m : List Host.Cell} {off : Nat} {b : Byte} (h : Holds m off [b]) : Memory.read m off = b :=
  h 0 b rfl

theorem Holds.half {m : List Host.Cell} {off : Nat} {v : Half} (h : Holds m off (le16 v)) : Memory.half m off = v := by
  have h0 : Memory.read m off = v.extractLsb' 0 8 := h 0 _ rfl
  rw [Memory.half, h 1 _ rfl, h0, highByte_append_lowByte]

theorem append_bytes_of_word (v : Word) :
    v.extractLsb' 24 8 ++ v.extractLsb' 16 8 ++ v.extractLsb' 8 8 ++ v.extractLsb' 0 8 = v := by
  have h24 : v.extractLsb' 24 8 ++ v.extractLsb' 16 8 = v.extractLsb' 16 16 :=
    BitVec.extractLsb'_append_extractLsb'_eq_extractLsb' rfl
  have h16 : v.extractLsb' 16 16 ++ v.extractLsb' 8 8 = v.extractLsb' 8 24 :=
    BitVec.extractLsb'_append_extractLsb'_eq_extractLsb' rfl
  have h8 : v.extractLsb' 8 24 ++ v.extractLsb' 0 8 = v.extractLsb' 0 32 :=
    BitVec.extractLsb'_append_extractLsb'_eq_extractLsb' rfl
  rw [h24, h16, h8, BitVec.extractLsb'_eq_self]

theorem Holds.word {m : List Host.Cell} {off : Nat} {v : Word} (h : Holds m off (le32 v)) : Memory.word m off = v := by
  have h0 : Memory.read m off = v.extractLsb' 0 8 := h 0 _ rfl
  rw [Memory.word, h 3 _ rfl, h 2 _ rfl, h 1 _ rfl, h0]
  exact append_bytes_of_word v

/-- A code comes back from its bytes, in V1 from one byte when it is at most 255 (R165, R220). -/
theorem Holds.code {m : List Host.Cell} {off : Nat} {v2 : Bool} {c : Half} (h : Holds m off (codeBytes v2 c))
    (hc : v2 = false → c.toNat ≤ 255) : Memory.code v2 m off = c := by
  cases v2 with
  | true => exact Holds.half h
  | false =>
    have hbyte : Memory.read m off = c.extractLsb' 0 8 := Holds.byte h
    refine BitVec.eq_of_toNat_eq ?_
    have := hc rfl
    simp [Memory.code, hbyte]
    omega

/-! ## Fields -/

/-- A field whose bytes, where it is there, give its value. -/
theorem keepIf_some_eq {α : Type} {present : Bool} {field : Option α} {v d : α} (hfield : field.isSome = present)
    (hv : present = true → v = field.getD d) : keepIf present (some v) = field := by
  cases field with
  | none => subst hfield; rfl
  | some u => subst hfield; rw [hv rfl]; rfl

theorem Holds.wordField {m : List Host.Cell} {off : Nat} {present : Bool} {field : Option Word}
    (h : Holds m off (bytesIf present (le32 (field.getD 0)))) (hfield : field.isSome = present) :
    keepIf present (some (Memory.word m off)) = field :=
  keepIf_some_eq hfield fun hp => Holds.word (by rwa [hp] at h)

theorem Holds.byteField {m : List Host.Cell} {off : Nat} {present : Bool} {field : Option Byte}
    (h : Holds m off (bytesIf present [field.getD 0])) (hfield : field.isSome = present) :
    keepIf present (some (Memory.read m off)) = field :=
  keepIf_some_eq hfield fun hp => Holds.byte (by rwa [hp] at h)

theorem Holds.codeField {m : List Host.Cell} {off : Nat} {v2 present : Bool} {field : Option Half}
    (h : Holds m off (bytesIf present (codeBytes v2 (field.getD 0)))) (hfield : field.isSome = present)
    (hle : v2 = false → above255 field = false) : keepIf present (some (Memory.code v2 m off)) = field :=
  keepIf_some_eq hfield fun hp => Holds.code (by rwa [hp] at h) fun h2 => by
    have := hle h2
    cases field with
    | none => exact Nat.zero_le _
    | some c => simpa [above255] using this

theorem zeroExtend_lowHalf {v : Word} (h : v.toNat ≤ 65535) : (v.extractLsb' 0 16).zeroExtend 32 = v := by
  refine BitVec.eq_of_toNat_eq ?_
  simp only [BitVec.toNat_setWidth, BitVec.extractLsb'_toNat, Nat.shiftRight_zero]
  omega

/-- The line number comes back from its low half when it fits (R164, R220). -/
theorem Holds.lineField {m : List Host.Cell} {off : Nat} {present : Bool} {field : Option Word}
    (h : Holds m off (bytesIf present (le16 ((field.getD 0).extractLsb' 0 16)))) (hfield : field.isSome = present)
    (hle : (field.getD 0).toNat ≤ 65535) : keepIf present (some ((Memory.half m off).zeroExtend 32)) = field :=
  keepIf_some_eq (d := 0) hfield fun hp => by
    have hhalf : Memory.half m off = (field.getD 0).extractLsb' 0 16 := Holds.half (by rwa [hp] at h)
    rw [hhalf, zeroExtend_lowHalf hle]

/-! ## The encoder's bytes -/

/-- The items of an encoder's frame between its header and its text, in wire order (R220). -/
def fieldItems (r : Record) : List (List Byte) :=
  [bytesIf (r.pm1.getLsbD 0) (le16 (r.line.extractLsb' 0 16)),
   bytesIf (r.pm1.getLsbD 1) (codeBytes (r.pm1.getLsbD 12) (r.mCode.getD 0)),
   bytesIf (r.pm1.getLsbD 2) (codeBytes (r.pm1.getLsbD 12) (r.gCode.getD 0)),
   bytesIf (r.pm1.getLsbD 3) (le32 (r.x.getD 0)), bytesIf (r.pm1.getLsbD 4) (le32 (r.y.getD 0)),
   bytesIf (r.pm1.getLsbD 5) (le32 (r.z.getD 0)), bytesIf (r.pm1.getLsbD 6) (le32 (r.e.getD 0)),
   bytesIf (r.pm1.getLsbD 8) (le32 (r.f.getD 0)), bytesIf (r.pm1.getLsbD 9) [r.toolIndex.getD 0],
   bytesIf (r.pm1.getLsbD 10) (le32 (r.sValue.getD 0)), bytesIf (r.pm1.getLsbD 11) (le32 (r.pValue.getD 0)),
   bytesIf (r.pm1.getLsbD 12 && r.pm2.getLsbD 0) (le32 (r.i.getD 0)),
   bytesIf (r.pm1.getLsbD 12 && r.pm2.getLsbD 1) (le32 (r.j.getD 0)),
   bytesIf (r.pm1.getLsbD 12 && r.pm2.getLsbD 2) (le32 (r.r.getD 0))]

theorem fieldItems_lengths (r : Record) : (fieldItems r).map List.length = fieldLengths r.pm1 r.pm2 := by
  simp only [fieldItems, List.map_cons, List.map_nil, length_bytesIf, length_le16, length_le32, length_codeBytes,
    fieldLengths, codeLength, Bool.cond_eq_ite]
  rfl

/-- With its marker set a record's mask is the bitfield on the wire. -/
theorem wireBf1_eq {r : Record} (hmarker : r.pm1.getLsbD 7 = true) : wireBf1 r = r.pm1 := by
  have h := putBit_getLsbD_self r.pm1 7
  rw [hmarker] at h
  exact h

/-- The encoder's body: header, fields, text (R220). -/
theorem encodeBody_eq {r : Record} (t : List Byte) (hmarker : r.pm1.getLsbD 7 = true) :
    encodeBody r t = encodeHeader r ++ (fieldItems r).flatten
      ++ bytesIf (r.pm1.getLsbD 15) (textBytes (r.pm1.getLsbD 12) t) := by
  have hwire : r.pm1 ||| 0x0080 = r.pm1 := wireBf1_eq hmarker
  unfold encodeBody
  simp only [hwire, encodeHeader, wireBf1, lengthByte, fieldItems, List.flatten_cons, List.flatten_nil, List.append_nil,
    List.append_assoc]

theorem length_encodeHeader_eq {r : Record} (hmarker : r.pm1.getLsbD 7 = true) :
    (encodeHeader r).length = headerLength r.pm1 := by
  simp only [encodeHeader, wireBf1_eq hmarker, List.length_append, length_le16, length_bytesIf, headerLength]
  rfl

/-! ## The round trip -/

/-- What R221 asks of a record and its text, as the round trip uses it. -/
structure Encodable (r : Record) (t : List Byte) : Prop where
  fields : r.matchesMasks = true
  marker : r.pm1.getLsbD 7 = true
  clean : r.rawFormatError = false
  line_le : r.line.toNat ≤ 65535
  textLen : r.pm1.getLsbD 15 = true → r.textLen = some (BitVec.ofNat 8 t.length)
  v2Text : r.pm1.getLsbD 12 = true → t.length ≤ 79
  v1Pm2 : r.pm1.getLsbD 12 = false → r.pm2 = 0
  v1M : r.pm1.getLsbD 12 = false → above255 r.mCode = false
  v1G : r.pm1.getLsbD 12 = false → above255 r.gCode = false
  v1Text : r.pm1.getLsbD 12 = false → r.pm1.getLsbD 15 = true → t.length = 16

theorem Encodable.of_encodable {r : Record} {t : List Byte} (h : encodable r t = true) : Encodable r t := by
  simp only [encodable, Bool.and_eq_true, Bool.not_eq_true', decide_eq_true_eq] at h
  obtain ⟨⟨⟨⟨⟨hfields, hmarker⟩, hclean⟩, hline⟩, htext⟩, hversion⟩ := h
  refine ⟨hfields, hmarker, hclean, hline, fun h15 => ?_, fun h12 => ?_, fun h12 => ?_, fun h12 => ?_,
    fun h12 => ?_, fun h12 h15 => ?_⟩
  · have hhas : r.hasText = true := h15
    rwa [hhas, if_pos rfl, decide_eq_true_eq] at htext
  · rwa [if_pos h12, decide_eq_true_eq] at hversion
  all_goals
    simp only [h12, Bool.false_eq_true, if_false, Bool.and_eq_true, Bool.not_eq_true', beq_iff_eq] at hversion
    obtain ⟨⟨⟨hpm2, hM⟩, hG⟩, ht⟩ := hversion
  · exact hpm2
  · exact hM
  · exact hG
  · have hhas : r.hasText = true := h15
    rwa [hhas, Bool.not_true, Bool.false_or, decide_eq_true_eq] at ht

/-- The encoder keeps every byte of such a text. -/
theorem Encodable.textBytes_eq {r : Record} {t : List Byte} (h : Encodable r t) (h15 : r.pm1.getLsbD 15 = true) :
    textBytes (r.pm1.getLsbD 12) t = t := by
  cases h12 : r.pm1.getLsbD 12 with
  | true =>
    have := h.v2Text h12
    exact List.take_of_length_le (by rw [Config.textCap]; omega)
  | false => exact List.take_left' (h.v1Text h12 h15)

/-- A memory that begins with the encoder's body of a record. -/
structure Encoded (m : List Host.Cell) (r : Record) (t : List Byte) : Prop where
  ok : Encodable r t
  holds : Holds m 0 (encodeBody r t)

namespace Encoded

variable {m : List Host.Cell} {r : Record} {t : List Byte}

theorem header (h : Encoded m r t) : Holds m 0 (encodeHeader r) := by
  have hbody := h.holds
  rw [encodeBody_eq t h.ok.marker] at hbody
  exact hbody.left.left

/-- Each field's item stands at its offset. -/
theorem item (h : Encoded m r t) (k : Nat) (hk : k < 14) :
    Holds m (fieldOffset r.pm1 r.pm2 k) ((fieldItems r)[k]'hk) := by
  have hbody := h.holds
  rw [encodeBody_eq t h.ok.marker] at hbody
  have hitem := hbody.left.right.item hk
  rwa [fieldItems_lengths, Nat.zero_add, length_encodeHeader_eq h.ok.marker] at hitem

/-- The text stands after the fields. -/
theorem text (h : Encoded m r t) (h15 : r.pm1.getLsbD 15 = true) : Holds m (fieldOffset r.pm1 r.pm2 14) t := by
  have hbody := h.holds
  rw [encodeBody_eq t h.ok.marker] at hbody
  have htext := hbody.right
  rw [List.length_append, List.length_flatten, fieldItems_lengths, Nat.zero_add, length_encodeHeader_eq h.ok.marker,
    h15, h.ok.textBytes_eq h15] at htext
  exact htext

theorem frameBf1_eq (h : Encoded m r t) : frameBf1 m = r.pm1 := by
  rw [← wireBf1_eq h.ok.marker]
  exact (h.header.left.left).half

theorem frameBf2_eq (h : Encoded m r t) : frameBf2 m = r.pm2 := by
  rw [frameBf2, h.frameBf1_eq]
  cases h12 : r.pm1.getLsbD 12 with
  | false => exact (h.ok.v1Pm2 h12).symm
  | true =>
    have hpm2 := h.header.left.right
    rw [h12] at hpm2
    exact hpm2.half

/-- The length byte gives the text's length back. -/
theorem textSpan_eq (h : Encoded m r t) (h15 : r.pm1.getLsbD 15 = true) :
    textSpan (frameBf1 m) (frameTl m) = t.length := by
  cases h12 : r.pm1.getLsbD 12 with
  | false =>
    rw [textSpan, h.frameBf1_eq, h12, h.ok.v1Text h12 h15]
    rfl
  | true =>
    have hle := h.ok.v2Text h12
    have hbyte := h.header.right
    rw [wireBf1_eq h.ok.marker, h12, h15] at hbyte
    have hread : Memory.read m 4 = lengthByte r := hbyte.byte
    rw [textSpan_v2 (h.frameBf1_eq ▸ h12) (h.frameBf1_eq ▸ h15), hread,
      lengthByte_toNat (Nat.lt_of_le_of_lt hle (by decide)) (h.ok.textLen h15), Config.textCap]
    omega

/-- A V1 record has no field of bitfield-2. -/
theorem arc (h : Encoded m r t) {k : Nat} {b : Bool} (hb : b = r.pm2.getLsbD k) :
    b = (r.pm1.getLsbD 12 && r.pm2.getLsbD k) := by
  cases h12 : r.pm1.getLsbD 12 with
  | true => exact hb
  | false =>
    rw [hb, h.ok.v1Pm2 h12]
    exact BitVec.getLsbD_zero

/-- The fields come back. -/
theorem frameRecord_eq (h : Encoded m r t) :
    frameRecord m r.pm1 r.pm2 14 = { r with textStart := none, textLen := none } := by
  have hfields := h.ok.fields
  simp only [Record.matchesMasks, Bool.and_eq_true, beq_iff_eq] at hfields
  obtain ⟨⟨⟨⟨⟨⟨⟨⟨⟨⟨⟨⟨⟨⟨⟨hN, hM⟩, hG⟩, hX⟩, hY⟩, hZ⟩, hE⟩, hF⟩, hT⟩, hS⟩, hP⟩, hI⟩, hJ⟩, hR⟩, -⟩, -⟩ := hfields
  have eN : keepIf (r.pm1.getLsbD 0) _ = r.lineNumber := (h.item 0 (by decide)).lineField hN h.ok.line_le
  have eM : keepIf (r.pm1.getLsbD 1) _ = r.mCode := (h.item 1 (by decide)).codeField hM h.ok.v1M
  have eG : keepIf (r.pm1.getLsbD 2) _ = r.gCode := (h.item 2 (by decide)).codeField hG h.ok.v1G
  have eX : keepIf (r.pm1.getLsbD 3) _ = r.x := (h.item 3 (by decide)).wordField hX
  have eY : keepIf (r.pm1.getLsbD 4) _ = r.y := (h.item 4 (by decide)).wordField hY
  have eZ : keepIf (r.pm1.getLsbD 5) _ = r.z := (h.item 5 (by decide)).wordField hZ
  have eE : keepIf (r.pm1.getLsbD 6) _ = r.e := (h.item 6 (by decide)).wordField hE
  have eF : keepIf (r.pm1.getLsbD 8) _ = r.f := (h.item 7 (by decide)).wordField hF
  have eT : keepIf (r.pm1.getLsbD 9) _ = r.toolIndex := (h.item 8 (by decide)).byteField hT
  have eS : keepIf (r.pm1.getLsbD 10) _ = r.sValue := (h.item 9 (by decide)).wordField hS
  have eP : keepIf (r.pm1.getLsbD 11) _ = r.pValue := (h.item 10 (by decide)).wordField hP
  have eI : keepIf (r.pm1.getLsbD 12 && r.pm2.getLsbD 0) _ = r.i := (h.item 11 (by decide)).wordField (h.arc hI)
  have eJ : keepIf (r.pm1.getLsbD 12 && r.pm2.getLsbD 1) _ = r.j := (h.item 12 (by decide)).wordField (h.arc hJ)
  have eR : keepIf (r.pm1.getLsbD 12 && r.pm2.getLsbD 2) _ = r.r := (h.item 13 (by decide)).wordField (h.arc hR)
  have eclean : false = r.rawFormatError := h.ok.clean.symm
  unfold frameRecord
  simp only [Nat.reduceLT, decide_true, Bool.true_and]
  rw [eN, eM, eG, eX, eY, eZ, eE, eF, eT, eS, eP, eI, eJ, eR, eclean]

/-- The whole decode: the record, with its text's place in this memory. -/
theorem binaryDecode_eq {size : Nat} (h : Encoded m r t) (hsize : 133 ≤ size) : ∃ w, binaryDecode size m = .ok w ∧
    w.cmd = { r with
      textStart := keepIf (r.pm1.getLsbD 15) (some (BitVec.ofNat 8 (fieldOffset r.pm1 r.pm2 14))) } := by
  have hfields := h.ok.fields
  simp only [Record.matchesMasks, Bool.and_eq_true, beq_iff_eq] at hfields
  obtain ⟨-, htextLen⟩ := hfields
  have hlen : keepIf (r.pm1.getLsbD 15) (some (BitVec.ofNat 8 (textSpan (frameBf1 m) (frameTl m)))) = r.textLen :=
    keepIf_some_eq (d := 0) htextLen fun h15 => by rw [h.textSpan_eq h15, h.ok.textLen h15, Option.getD_some]
  refine ⟨_, Machine.binaryDecode_eq hsize, ?_⟩
  simp only [frameTextStart, h.frameBf2_eq, h.frameBf1_eq] at hlen ⊢
  rw [hlen, h.frameRecord_eq]

end Encoded

/-- Settles O45: the frame ends with its own dual-sum, each field is read where its item stands, and the text is the
slice after them. -/
theorem encodeDecodeRoundTrip : Obligations.EncodeDecodeRoundTrip := by
  intro r t m size hr hsize hm
  have hrecord : Holds m 0 (encodeRecord r t) := fun k b hk => by rw [Nat.zero_add, hm k b hk]
  have henc : Encoded m r t := ⟨.of_encodable hr, hrecord.left⟩
  obtain ⟨w, hdecode, hcmd⟩ := henc.binaryDecode_eq hsize
  refine ⟨(frameValid_append_iff ..).2 rfl, w, _, hdecode, hcmd, ?_, fun o ho => ?_⟩
  · cases h15 : r.pm1.getLsbD 15 <;> rw [Record.hasText, h15] <;> rfl
  · cases h15 : r.pm1.getLsbD 15 with
    | false => rw [h15] at ho; cases ho
    | true =>
      rw [h15] at ho
      injection ho with ho
      have hle := fieldOffset_le r.pm1 r.pm2 14
      have hstart : o.toNat = fieldOffset r.pm1 r.pm2 14 := ho ▸ Nat.mod_eq_of_lt (show _ < 2 ^ 8 by omega)
      rw [hstart]
      exact (henc.text h15).slice

end Sys2Proof.Machine
end

section
/-! # The rows of an ASCII decode by themselves: the tokens and the text capture -/

namespace Sys2Proof.Machine

/-! ## Tokens -/

/-- `FIND` in a whole list finds the first occurrence. -/
theorem findByte_eq_some {ch : Byte} {l : List Byte} {p : Nat} : findByte ch l = some p ↔ FirstAt ch l l.length p := by
  rw [← findByte_take_eq_some, List.take_length]

theorem findByte_eq_none {ch : Byte} {l : List Byte} : findByte ch l = none ↔ AbsentBelow ch l l.length := by
  rw [← findByte_take_eq_none, List.take_length]

/-- The codes of text mode (R196). -/
theorem textM_contains_iff (code : Half) :
    Config.textM.contains code = true ↔ code ∈ [23, 28, 29, 30, 32, 117, 3117] := List.contains_iff_mem

/-- The row of M on a body that has none (R196). -/
theorem rowTokM_of_absent {c : List Byte} {w : Work} (h : AbsentBelow 0x4D (w.body c) (w.body c).length) :
    rowTokM c w = { w with mpos := none } := by
  rw [rowTokM, findByte_eq_none.2 h]

/-- The row of M on a body whose first M has no number (R195). -/
theorem rowTokM_of_fails {c : List Byte} {w : Work} {p : Nat} (h : FirstAt 0x4D (w.body c) (w.body c).length p)
    (hfail : parseInt ((w.body c).drop (p + 1)) = none) : rowTokM c w = { w with mpos := some p, fmt := true } := by
  simp only [rowTokM, findByte_eq_some.2 h, hfail]

/-- The row of M on a body whose first M has a number (R196). -/
theorem rowTokM_of_reads {c : List Byte} {w : Work} {p : Nat} {v : Int}
    (h : FirstAt 0x4D (w.body c) (w.body c).length p) (hv : parseInt ((w.body c).drop (p + 1)) = some v) :
    rowTokM c w = { w with
      mpos := some p
      textMode := Config.textM.contains (BitVec.ofInt 16 v)
      cmd := { w.cmd with mCode := some (BitVec.ofInt 16 v) } } := by
  simp only [rowTokM, findByte_eq_some.2 h, hv]

/-- Settles O49: the row by whether the body has an M, and by its number. -/
theorem tokenMRow : Obligations.TokenMRow := by
  intro s hlen
  have hexec : exec .tokM s = .next (s.afterRow (rowTokM s.content s.work)) := asciiRow_eq _ hlen
  rw [hexec]
  refine ⟨fun habsent => ?_, fun p hfirst => ⟨fun hfail => ?_, fun v hv => ⟨_, textM_contains_iff _, ?_⟩⟩⟩
  · rw [rowTokM_of_absent habsent]
  · rw [rowTokM_of_fails hfirst hfail]
  · rw [rowTokM_of_reads hfirst hv]

/-- A letter other than M, with a number of either kind after it: `tokInt` and `tokFloat` in one (R192, R195). -/
def tokLetter {α : Type} (parse : List Byte → Option α) (ch : Byte) (c : List Byte) (w : Work)
    (put : Record → α → Record) : Work :=
  match letterRead parse ch (w.body c) w.limit with
  | none => w
  | some none => { w with fmt := true }
  | some (some v) => { w with cmd := put w.cmd v }

theorem tokInt_eq_tokLetter : tokInt = tokLetter parseInt := by
  funext ch c w put
  rw [tokInt, tokLetter, letterRead]
  cases findByte ch ((w.body c).take w.limit) with
  | none => rfl
  | some p => cases h : parseInt ((w.body c).drop (p + 1)) <;> simp [h]

theorem tokFloat_eq_tokLetter : tokFloat = tokLetter parseFloat := by
  funext ch c w put
  rw [tokFloat, tokLetter, letterRead]
  cases findByte ch ((w.body c).take w.limit) with
  | none => rfl
  | some p => cases h : parseFloat ((w.body c).drop (p + 1)) <;> simp [h]

/-- The effect of a row that is the search for a letter other than M (R192, R195). -/
theorem letterRow_effect {α : Type} {i : Instr} {parse : List Byte → Option α} {ch : Byte} {put : Record → α → Record}
    {s : State} (hexec : exec i s = asciiRow s fun c w => tokLetter parse ch c w put)
    (hlen : s.work.len ≤ s.params.accLen) :
    (AbsentBelow ch s.bodyBytes s.searchEnd → exec i s = .next (s.afterRow s.work)) ∧
    ∀ p, FirstAt ch s.bodyBytes s.searchEnd p →
      (parse (s.bodyBytes.drop (p + 1)) = none → exec i s = .next (s.afterRow { s.work with fmt := true })) ∧
      ∀ v, parse (s.bodyBytes.drop (p + 1)) = some v →
        exec i s = .next (s.afterRow { s.work with cmd := put s.work.cmd v }) := by
  have hread : letterRead parse ch (s.work.body s.content) s.work.limit =
    (findByte ch (s.bodyBytes.take s.searchEnd)).map fun p => parse (s.bodyBytes.drop (p + 1)) := rfl
  rw [hexec, asciiRow_eq _ hlen, tokLetter, hread]
  refine ⟨fun habsent => ?_, fun p hfirst => ?_⟩
  · rw [findByte_take_eq_none.2 habsent]
    rfl
  · rw [findByte_take_eq_some.2 hfirst, Option.map_some]
    exact ⟨fun hfail => by rw [hfail], fun v hv => by rw [hv]⟩

theorem intTokenEffect {i : Instr} {ch : Byte} {put : Record → Int → Record}
    (hexec : ∀ s, exec i s = asciiRow s fun c w => tokInt ch c w put) : IntTokenEffect i ch put :=
  fun s => letterRow_effect (tokInt_eq_tokLetter ▸ hexec s)

theorem floatTokenEffect {i : Instr} {ch : Byte} {put : Record → Word → Record}
    (hexec : ∀ s, exec i s = asciiRow s fun c w => tokFloat ch c w put) : FloatTokenEffect i ch put :=
  fun s => letterRow_effect (tokFloat_eq_tokLetter ▸ hexec s)

/-- Settles O50: five letters, one search. -/
theorem integerTokenRows : Obligations.IntegerTokenRows :=
  ⟨intTokenEffect fun _ => rfl, intTokenEffect fun _ => rfl, intTokenEffect fun _ => rfl, intTokenEffect fun _ => rfl,
    intTokenEffect fun _ => rfl⟩

/-- Settles O51: eight letters, one search. -/
theorem floatTokenRows : Obligations.FloatTokenRows :=
  ⟨floatTokenEffect fun _ => rfl, floatTokenEffect fun _ => rfl, floatTokenEffect fun _ => rfl,
    floatTokenEffect fun _ => rfl, floatTokenEffect fun _ => rfl, floatTokenEffect fun _ => rfl,
    floatTokenEffect fun _ => rfl, floatTokenEffect fun _ => rfl⟩

/-! ## Text capture -/

/-- What the text row of `code` does to a line (R210, R211). -/
def captureText (code : Half) (c : List Byte) (w : Work) : Work :=
  if w.captures code then
    { w with
      cmd := w.cmd.withText (textStartOf (w.body c) (w.mpos.getD 0))
        (textLength (w.body c) (some code) (textStartOf (w.body c) (w.mpos.getD 0))) }
  else w

/-- The rows of the seven codes are this one. -/
theorem exec_textRow {i : Instr} {code : Half} (s : State)
    (h : (i, code) ∈ [(Instr.m23, (23 : Half)), (.m28, 28), (.m29, 29), (.m30, 30), (.m32, 32), (.m117, 117),
      (.m3117, 3117)]) : exec i s = asciiRow s (captureText code) := by
  simp only [List.mem_cons, Prod.mk.injEq, List.not_mem_nil, or_false] at h
  rcases h with ⟨rfl, rfl⟩ | ⟨rfl, rfl⟩ | ⟨rfl, rfl⟩ | ⟨rfl, rfl⟩ | ⟨rfl, rfl⟩ | ⟨rfl, rfl⟩ | ⟨rfl, rfl⟩ <;> rfl

/-- The length of a text, part by part (R210, R211). -/
theorem TextParts.textLength_eq {body : List Byte} {mpos : Nat} {num gap word rest : List Byte}
    (h : TextParts body mpos num gap word rest) (code : Option Half) :
    textLength body code (textStartOf body mpos) =
      if code = some 117 ∨ code = some 3117 then word.length + rest.length else word.length := by
  obtain ⟨hstart, hword, hlen⟩ := h.spans
  rw [textLength, hstart, hword]
  split
  · omega
  · rfl

/-- Settles O52: a row that does not apply leaves the line, and one that does captures the text the parts give. -/
theorem textCaptureRows : Obligations.TextCaptureRows := by
  intro i code s hrow hlen
  rw [exec_textRow s hrow, asciiRow_eq _ hlen, captureText]
  refine ⟨fun hskip => ?_, fun mpos num gap word rest htext hcode hmpos hparts => ?_⟩
  · have hcaptures : ¬ s.work.captures code = true := by
      rw [Work.captures, Bool.and_eq_true, beq_iff_eq]
      rintro ⟨htext, hcode⟩
      exact hskip.elim (fun h => Bool.false_ne_true (h.symm.trans htext)) fun h => h hcode
    rw [if_neg hcaptures]
  · have hcaptures : s.work.captures code = true := by
      rw [Work.captures, htext, hcode, Bool.true_and, beq_self_eq_true]
    have hbody : s.work.body s.content = s.bodyBytes := rfl
    have hm : s.work.mpos.getD 0 = mpos := by rw [hmpos, Option.getD_some]
    obtain ⟨hstart, -⟩ := hparts.spans
    rw [if_pos hcaptures, hbody, hm, hparts.textLength_eq, hstart]
    simp only [Option.some.injEq]
    rfl

end Sys2Proof.Machine
end

section
/-! # ASCII numbers: the two grammars -/

namespace Sys2Proof.Machine

/-- A sign is read as it stands; without one the number must not begin like a sign. -/
theorem signOf_append {sg : List Byte} {neg : Bool} (hsg : IsSign sg neg) {rest : List Byte}
    (hrest : sg = [] → ∀ b, rest.head? = some b → b ≠ 0x2B ∧ b ≠ 0x2D) : signOf (sg ++ rest) = (neg, rest) := by
  rcases hsg with ⟨rfl, rfl⟩ | ⟨rfl, rfl⟩ | ⟨rfl, rfl⟩
  · cases rest with
    | nil => rfl
    | cons b rest =>
      obtain ⟨hplus, hminus⟩ : b ≠ chPlus ∧ b ≠ chMinus := hrest rfl b rfl
      rw [List.nil_append, signOf, if_neg hminus, if_neg hplus]
  · rfl
  · rfl

/-- A digit and '.' are no signs. -/
theorem not_sign_of_isDigit {b : Byte} (h : isDigit b = true) : b ≠ 0x2B ∧ b ≠ 0x2D := by
  constructor <;> (rintro rfl; exact absurd h (by decide))

theorem not_sign_of_head {ds rest : List Byte} (hne : ds ≠ []) (hds : ∀ d ∈ ds, isDigit d = true) (b : Byte)
    (hb : (ds ++ rest).head? = some b) : b ≠ 0x2B ∧ b ≠ 0x2D := by
  cases ds with
  | nil => exact absurd rfl hne
  | cons d ds =>
    injection hb with hb
    exact not_sign_of_isDigit (hb ▸ hds d List.mem_cons_self)

/-- The digits after a sign (R193). -/
theorem digitRun_digits {ds rest : List Byte} (hds : ∀ d ∈ ds, isDigit d = true) (hrest : StopsDigits rest) :
    digitRun 0 0 (ds ++ rest) = (decimalValue ds, ds.length, rest) := by
  rw [digitRun_append 0 0 ds rest hds hrest, Nat.zero_add]
  rfl

/-- `INT` on a number whose sign has been read (R193). -/
theorem parseInt_eq {l ds rest : List Byte} {neg : Bool} (hsign : signOf l = (neg, ds ++ rest))
    (hds : ∀ d ∈ ds, isDigit d = true) (hrest : StopsDigits rest) : parseInt l =
      if ds.length = 0 then none else some (if neg then -(decimalValue ds : Int) else (decimalValue ds : Int)) := by
  simp only [parseInt, hsign, digitRun_digits hds hrest]

/-- Settles O53: the sign, then the run of digits. -/
theorem integerGrammar : Obligations.IntegerGrammar := by
  intro sg ds rest neg hsg hds hrest
  refine ⟨fun hne => ?_, fun hnil hsign => ?_⟩
  · rw [List.append_assoc, parseInt_eq (signOf_append hsg fun _ => not_sign_of_head hne hds) hds hrest,
      if_neg (List.length_eq_zero_iff.not.2 hne)]
  · exact (parseInt_eq (ds := []) (signOf_append hsg hsign) (List.forall_mem_nil _) hrest).trans (if_pos rfl)

/-- `FLT` on a number whose sign and digits have been read (R194). -/
theorem parseFloat_eq {l ds rest : List Byte} {neg : Bool} (hsign : signOf l = (neg, ds ++ rest))
    (hds : ∀ d ∈ ds, isDigit d = true) (hrest : StopsDigits rest) {num places : Nat}
    (hfraction : fractionRun (decimalValue ds) rest = (num, places)) : parseFloat l =
      if ds.length + places = 0 then none
      else some (if neg then dec2f32 num (10 ^ places) ||| 0x80000000 else dec2f32 num (10 ^ places)) := by
  simp only [parseFloat, hsign, digitRun_digits hds hrest, hfraction]

/-- Without a '.' there is no fraction. -/
theorem fractionRun_of_no_dot {rest : List Byte} (a : Nat) (h : rest.head? ≠ some 0x2E) :
    fractionRun a rest = (a, 0) := by
  cases rest with
  | nil => rfl
  | cons b rest =>
    have hb : b ≠ chDot := fun hb => h (congrArg some hb)
    rw [fractionRun, if_neg hb]

/-- A '.' and digits: the digits go on, and their count gives the power of ten. -/
theorem fractionRun_dot {ds fs rest : List Byte} (hfs : ∀ d ∈ fs, isDigit d = true) (hrest : StopsDigits rest) :
    fractionRun (decimalValue ds) (0x2E :: (fs ++ rest)) = (decimalValue (ds ++ fs), fs.length) := by
  have hdot : (0x2E : Byte) = chDot := rfl
  rw [fractionRun, if_pos hdot, digitRun_append _ _ fs rest hfs hrest, Nat.zero_add, decimalValue, decimalValue,
    List.foldl_append]
  rfl

theorem stopsDigits_dot (l : List Byte) : StopsDigits (0x2E :: l) := by
  intro b hb
  injection hb with hb
  subst hb
  decide

/-- A number that begins with digits or '.' has no other sign. -/
theorem not_sign_of_head_dot {ds : List Byte} (hds : ∀ d ∈ ds, isDigit d = true) (l : List Byte) (b : Byte)
    (hb : (ds ++ 0x2E :: l).head? = some b) : b ≠ 0x2B ∧ b ≠ 0x2D := by
  cases ds with
  | nil =>
    injection hb with hb
    subst hb
    decide
  | cons d ds => exact not_sign_of_head (List.cons_ne_nil d ds) hds b hb

/-- Settles O54: the sign, the run of digits, and the fraction. -/
theorem decimalGrammar : Obligations.DecimalGrammar := by
  intro sg ds fs rest neg hsg hds hfs hrest
  have hdot : fractionRun (decimalValue ds) (0x2E :: (fs ++ rest)) = _ := fractionRun_dot hfs hrest
  refine ⟨fun hne hnodot => ?_, fun hne => ?_, fun hds0 hfs0 => ?_, fun hds0 hnodot hsign => ?_⟩
  · rw [List.append_assoc, parseFloat_eq (signOf_append hsg fun _ => not_sign_of_head hne hds) hds hrest
      (fractionRun_of_no_dot _ hnodot), if_neg (by simpa using hne), Nat.pow_zero]
  · have hlen : ds.length + fs.length ≠ 0 := by rwa [← List.length_append, ne_eq, List.length_eq_zero_iff]
    rw [List.append_assoc, List.append_assoc, List.cons_append,
      parseFloat_eq (signOf_append hsg fun _ => not_sign_of_head_dot hds _) hds (stopsDigits_dot _) hdot, if_neg hlen]
  · subst hds0 hfs0
    exact (parseFloat_eq (ds := []) (signOf_append hsg fun _ => not_sign_of_head_dot hds rest) hds (stopsDigits_dot _)
      hdot).trans (if_pos rfl)
  · exact (parseFloat_eq (ds := []) (signOf_append hsg hsign) (List.forall_mem_nil _) hrest
      (fractionRun_of_no_dot _ hnodot)).trans (if_pos rfl)

end Sys2Proof.Machine
end

section
/-! # DEC2F32: the rounding, and why its result is the nearest binary32 value -/

namespace Sys2Proof.Machine

/-! ## Rounding to an integer -/

/-- The rounded quotient is at most half a unit away, and even when it is just half a unit away. -/
theorem roundHalfEven_spec (num : Nat) {den : Nat} (hden : 0 < den) :
    2 * (roundHalfEven num den * den) ≤ 2 * num + den ∧ 2 * num ≤ 2 * (roundHalfEven num den * den) + den ∧
    (2 * (roundHalfEven num den * den) = 2 * num + den ∨ 2 * num = 2 * (roundHalfEven num den * den) + den →
      roundHalfEven num den % 2 = 0) := by
  have hdiv : num / den * den + num % den = num := by rw [Nat.mul_comm, Nat.div_add_mod]
  have hmod := Nat.mod_lt num hden
  rw [roundHalfEven]
  split
  next h =>
    rw [Nat.add_mul, Nat.one_mul]
    omega
  next h => omega

/-- The rounded quotient is nearer than any other integer, or as near and even. -/
theorem roundHalfEven_nearest (num : Nat) {den m : Nat} (hden : 0 < den) (hm : m ≠ roundHalfEven num den) :
    Nat.dist (roundHalfEven num den * den) num < Nat.dist (m * den) num ∨
    (Nat.dist (roundHalfEven num den * den) num = Nat.dist (m * den) num ∧ roundHalfEven num den % 2 = 0) := by
  obtain ⟨hlow, hhigh, heven⟩ := roundHalfEven_spec num hden
  have hgap : m * den + den ≤ roundHalfEven num den * den ∨ roundHalfEven num den * den + den ≤ m * den := by
    rcases Nat.lt_or_gt_of_ne hm with h | h
    · exact .inl (Nat.succ_mul m den ▸ Nat.mul_le_mul_right den h)
    · exact .inr (Nat.succ_mul _ den ▸ Nat.mul_le_mul_right den h)
  unfold Nat.dist
  omega

theorem roundHalfEven_le {num den a : Nat} (hden : 0 < den) (h : num ≤ a * den) : roundHalfEven num den ≤ a := by
  obtain ⟨hlow, -⟩ := roundHalfEven_spec num hden
  by_contra hlt
  have hmul := Nat.mul_le_mul_right den (Nat.lt_of_not_le hlt)
  rw [Nat.succ_mul] at hmul
  omega

/-- A quotient is rounded up to an even integer from half a unit below it on. -/
theorem le_roundHalfEven_iff {num den a : Nat} (hden : 0 < den) (ha : a % 2 = 0) :
    a ≤ roundHalfEven num den ↔ 2 * (a * den) ≤ 2 * num + den := by
  obtain ⟨hlow, hhigh, heven⟩ := roundHalfEven_spec num hden
  constructor
  · intro h
    have hmul := Nat.mul_le_mul_right den h
    omega
  · intro h
    by_contra hlt
    have hmul := Nat.mul_le_mul_right den (Nat.lt_of_not_le hlt)
    rw [Nat.succ_mul] at hmul
    have hm : roundHalfEven num den % 2 = 0 := heven (.inr (by omega))
    have hmul2 := Nat.mul_le_mul_right den (show roundHalfEven num den + 2 ≤ a by omega)
    rw [Nat.add_mul] at hmul2
    omega

/-! ## The values of the patterns -/

theorem f32Units_subnormal {b : Nat} (h : b < 2 ^ 23) : f32Units b = b := by
  rw [f32Units, if_pos (Nat.div_eq_of_lt h), Nat.mod_eq_of_lt h]

/-- The value of exponent field `e + 1` and fraction `f`. -/
theorem f32Units_normal {e f : Nat} (hf : f < 2 ^ 23) : f32Units ((e + 1) * 2 ^ 23 + f) = (2 ^ 23 + f) * 2 ^ e := by
  have hdiv : ((e + 1) * 2 ^ 23 + f) / 2 ^ 23 = e + 1 := by omega
  have hmod : ((e + 1) * 2 ^ 23 + f) % 2 ^ 23 = f := by omega
  rw [f32Units, hdiv, hmod, if_neg (Nat.succ_ne_zero e), Nat.add_sub_cancel]

/-- A pattern is subnormal, or has an exponent field and a fraction. -/
theorem f32_cases (b : Nat) : b < 2 ^ 23 ∨ ∃ e f, f < 2 ^ 23 ∧ b = (e + 1) * 2 ^ 23 + f := by
  by_cases h : b < 2 ^ 23
  · exact .inl h
  · exact .inr ⟨b / 2 ^ 23 - 1, b % 2 ^ 23, Nat.mod_lt _ (by decide), by omega⟩

/-- A significand `m` at scale `k` is the pattern `k * 2^23 + m`: a carry into the exponent field is no exception. -/
theorem f32Units_scaled {k m : Nat} (hk : k = 0 ∨ 2 ^ 23 ≤ m) (hm : m ≤ 2 ^ 24) :
    f32Units (k * 2 ^ 23 + m) = m * 2 ^ k := by
  by_cases hlow : m < 2 ^ 23
  · have hk0 : k = 0 := by omega
    rw [hk0, Nat.zero_mul, Nat.zero_add, f32Units_subnormal hlow, Nat.pow_zero, Nat.mul_one]
  · by_cases hcarry : m = 2 ^ 24
    · have hb : k * 2 ^ 23 + m = (k + 1 + 1) * 2 ^ 23 + 0 := by omega
      rw [hb, f32Units_normal (by decide), hcarry, Nat.pow_succ]
      omega
    · have hb : k * 2 ^ 23 + m = (k + 1) * 2 ^ 23 + (m - 2 ^ 23) := by omega
      rw [hb, f32Units_normal (by omega), Nat.add_sub_cancel' (Nat.le_of_not_lt hlow)]

/-- A larger pattern has a larger value. -/
theorem f32Units_strictMono : StrictMono f32Units := by
  refine strictMono_nat_of_lt_succ fun b => ?_
  rcases f32_cases b with h | ⟨e, f, hf, rfl⟩
  · rw [f32Units_subnormal h]
    have hnext := f32Units_scaled (k := 0) (m := b + 1) (.inl rfl) (by omega)
    rw [Nat.zero_mul, Nat.zero_add, Nat.pow_zero, Nat.mul_one] at hnext
    omega
  · have hb : (e + 1) * 2 ^ 23 + f + 1 = e * 2 ^ 23 + (2 ^ 23 + f + 1) := by omega
    rw [f32Units_normal hf, hb, f32Units_scaled (.inr (by omega)) (by omega)]
    exact Nat.mul_lt_mul_of_pos_right (by omega) (Nat.two_pow_pos e)

/-- At scale `k` a value is a multiple of the unit, or lies below the significands of 24 bits. -/
theorem f32Units_multiple_or_lt (b k : Nat) :
    (∃ m, f32Units b = m * 2 ^ k) ∨ (0 < k ∧ f32Units b < 2 ^ 23 * 2 ^ k) := by
  rcases Nat.eq_zero_or_pos k with rfl | hk
  · exact .inl ⟨f32Units b, by rw [Nat.pow_zero, Nat.mul_one]⟩
  rcases f32_cases b with h | ⟨e, f, hf, rfl⟩
  · rw [f32Units_subnormal h]
    exact .inr ⟨hk, h.trans_le (Nat.le_mul_of_pos_right _ (Nat.two_pow_pos k))⟩
  · rw [f32Units_normal hf]
    by_cases hke : k ≤ e
    · refine .inl ⟨(2 ^ 23 + f) * 2 ^ (e - k), ?_⟩
      rw [Nat.mul_assoc, ← Nat.pow_add, Nat.sub_add_cancel hke]
    · refine .inr ⟨hk, ?_⟩
      calc (2 ^ 23 + f) * 2 ^ e < (2 ^ 23 * 2) * 2 ^ e :=
            Nat.mul_lt_mul_of_pos_right (by omega) (Nat.two_pow_pos e)
        _ = 2 ^ 23 * 2 ^ (e + 1) := by ring
        _ ≤ 2 ^ 23 * 2 ^ k := Nat.mul_le_mul_left _ (Nat.pow_le_pow_right (by decide) (by omega))

theorem f32Distance_eq (num den b : Nat) :
    f32Distance num den b = Nat.dist (f32Units b * den) (num * 2 ^ 149) := by
  unfold f32Distance Nat.dist
  push_cast
  omega

/-! ## The scale and the significand -/

/-- How many bits of the value, in units of 2^-149, lie above a 24-bit significand. -/
def decimalScale (num den : Nat) : Nat := Nat.log2 (num * 2 ^ 149 / den) - 23

/-- The unit of the significand, as a multiple of `den`. -/
def decimalUnit (num den : Nat) : Nat := den * 2 ^ decimalScale num den

/-- The value rounded to such units. -/
def decimalSignificand (num den : Nat) : Nat := roundHalfEven (num * 2 ^ 149) (decimalUnit num den)

theorem dec2f32_toNat (num den : Nat) :
    (dec2f32 num den).toNat = min (decimalScale num den * 2 ^ 23 + decimalSignificand num den) 0x7F800000 := by
  rw [dec2f32, BitVec.toNat_ofNat, decimalSignificand, decimalUnit, decimalScale]
  exact Nat.mod_eq_of_lt (Nat.lt_of_le_of_lt (Nat.min_le_right ..) (by decide))

section
variable {num den : Nat} (hden : 0 < den)
include hden

theorem decimalUnit_pos : 0 < decimalUnit num den := Nat.mul_pos hden (Nat.two_pow_pos _)

/-- The value has at most 24 bits above the unit. -/
theorem lt_decimalUnit_mul : num * 2 ^ 149 < 2 ^ 24 * decimalUnit num den := by
  have hlog : num * 2 ^ 149 / den < 2 ^ (decimalScale num den + 24) :=
    Nat.lt_log2_self.trans_le (Nat.pow_le_pow_right (by decide) (by unfold decimalScale; omega))
  rw [Nat.div_lt_iff_lt_mul hden] at hlog
  calc num * 2 ^ 149 < 2 ^ (decimalScale num den + 24) * den := hlog
    _ = 2 ^ 24 * decimalUnit num den := by rw [decimalUnit]; ring

/-- It has all 24, unless the unit is the smallest there is. -/
theorem decimalUnit_mul_le : decimalScale num den = 0 ∨ 2 ^ 23 * decimalUnit num den ≤ num * 2 ^ 149 := by
  rcases Nat.eq_zero_or_pos (decimalScale num den) with h | h
  · exact .inl h
  · right
    have hlog : Nat.log2 (num * 2 ^ 149 / den) = decimalScale num den + 23 := by unfold decimalScale at *; omega
    have hne : num * 2 ^ 149 / den ≠ 0 := fun h0 => by rw [h0, Nat.log2_zero] at hlog; omega
    have hle := Nat.log2_self_le hne
    rw [hlog, Nat.le_div_iff_mul_le hden] at hle
    calc 2 ^ 23 * decimalUnit num den = 2 ^ (decimalScale num den + 23) * den := by rw [decimalUnit]; ring
      _ ≤ num * 2 ^ 149 := hle

theorem decimalSignificand_le : decimalSignificand num den ≤ 2 ^ 24 :=
  roundHalfEven_le (decimalUnit_pos hden) (Nat.le_of_lt (lt_decimalUnit_mul hden))

theorem le_decimalSignificand : decimalScale num den = 0 ∨ 2 ^ 23 ≤ decimalSignificand num den :=
  (decimalUnit_mul_le hden).imp_right fun h =>
    (le_roundHalfEven_iff (decimalUnit_pos hden) (by decide)).2 (by omega)

/-- The pattern overflows exactly from half a unit above the largest finite value on (R194). -/
theorem overflow_iff : 0x7F800000 ≤ decimalScale num den * 2 ^ 23 + decimalSignificand num den ↔
    (2 ^ 128 - 2 ^ 103) * den ≤ num := by
  have hm := decimalSignificand_le (num := num) hden
  have hk := le_decimalSignificand (num := num) hden
  have hlt := lt_decimalUnit_mul (num := num) hden
  have hle := decimalUnit_mul_le (num := num) hden
  rcases Nat.lt_trichotomy (decimalScale num den) 253 with h | h | h
  · have hunit : decimalUnit num den ≤ den * 2 ^ 252 :=
      Nat.mul_le_mul_left den (Nat.pow_le_pow_right (by decide) (by omega))
    omega
  · have hround : 2 ^ 24 ≤ decimalSignificand num den ↔ _ :=
      le_roundHalfEven_iff (decimalUnit_pos hden) (by decide)
    have hunit : decimalUnit num den = den * 2 ^ 253 := by rw [decimalUnit, h]
    rw [hunit] at hround
    omega
  · have hunit : den * 2 ^ 254 ≤ decimalUnit num den :=
      Nat.mul_le_mul_left den (Nat.pow_le_pow_right (by decide) (by omega))
    omega

/-- The pattern's value is the significand at its scale. -/
theorem f32Units_mul_eq : f32Units (decimalScale num den * 2 ^ 23 + decimalSignificand num den) * den =
    decimalSignificand num den * decimalUnit num den := by
  rw [f32Units_scaled (le_decimalSignificand hden) (decimalSignificand_le hden), decimalUnit]
  ring

/-- No other pattern's value is as near, but where the two are equally near and this one is even. -/
theorem pattern_nearest {b : Nat} (hb : b ≠ decimalScale num den * 2 ^ 23 + decimalSignificand num den) :
    let best := decimalScale num den * 2 ^ 23 + decimalSignificand num den
    f32Distance num den best < f32Distance num den b ∨
    (f32Distance num den best = f32Distance num den b ∧ best % 2 = 0) := by
  intro best
  have hunits := f32Units_scaled (le_decimalSignificand (num := num) hden) (decimalSignificand_le hden)
  rw [f32Distance_eq, f32Distance_eq, f32Units_mul_eq hden]
  rcases f32Units_multiple_or_lt b (decimalScale num den) with ⟨m, hmul⟩ | ⟨hpos, hlt⟩
  · have hm : m ≠ decimalSignificand num den := fun h =>
      hb (f32Units_strictMono.injective (by rw [hmul, hunits, h]))
    have hval : f32Units b * den = m * decimalUnit num den := by rw [hmul, decimalUnit]; ring
    rw [hval]
    refine (roundHalfEven_nearest _ (decimalUnit_pos hden) hm).imp_right fun ⟨heq, heven⟩ => ⟨heq, ?_⟩
    change decimalSignificand num den % 2 = 0 at heven
    omega
  · left
    have hle := (decimalUnit_mul_le (num := num) hden).resolve_left (Nat.ne_of_gt hpos)
    have hbelow : f32Units b * den < 2 ^ 23 * decimalUnit num den := calc
      f32Units b * den < 2 ^ 23 * 2 ^ decimalScale num den * den := Nat.mul_lt_mul_of_pos_right hlt hden
      _ = 2 ^ 23 * decimalUnit num den := by rw [decimalUnit]; ring
    have hbest : Nat.dist (decimalSignificand num den * decimalUnit num den) (num * 2 ^ 149) ≤
        Nat.dist (2 ^ 23 * decimalUnit num den) (num * 2 ^ 149) := by
      by_cases hm : 2 ^ 23 = decimalSignificand num den
      · rw [hm]
      · rcases roundHalfEven_nearest _ (decimalUnit_pos hden) hm with h | h
        · exact Nat.le_of_lt h
        · exact Nat.le_of_eq h.1
    unfold Nat.dist at hbest ⊢
    omega

end

/-- Settles O55: the overflow bound, and the nearest pattern below it. -/
theorem decimalIsRoundedToNearest : Obligations.DecimalIsRoundedToNearest := by
  intro num den hden
  have hover := overflow_iff (num := num) hden
  have hbits := dec2f32_toNat num den
  refine ⟨fun h => ?_, fun h => ?_⟩
  · refine BitVec.eq_of_toNat_eq (hbits.trans ?_)
    exact Nat.min_eq_right (hover.2 h)
  · have hfinite := Nat.lt_of_not_le (mt hover.1 (Nat.not_le_of_lt h))
    rw [hbits, Nat.min_eq_left (Nat.le_of_lt hfinite)]
    exact ⟨hfinite, fun b _ hb => pattern_nearest hden hb⟩

end Sys2Proof.Machine
end

section
/-! # A whole ASCII line: its fields, its text and its masks -/

namespace Sys2Proof.Machine

/-- The fields, the text and the masks agree on every line, with or without a format error (R212). -/
theorem asciiDecode_matchesMasks (c : List Byte) : (asciiDecode c).cmd.matchesMasks = true := by
  obtain ⟨hstart, hlen, -⟩ := asciiDecode_text c
  have hpm1 : (asciiDecode c).cmd.pm1 = asciiPm1 (asciiDecode c).cmd (asciiDecode c).textMode := sealRecord_pm1 _
  have hpm2 : (asciiDecode c).cmd.pm2 = asciiPm2 (asciiDecode c).cmd := sealRecord_pm2 _
  simp [-BitVec.getLsbD_eq_getElem, Record.matchesMasks, hpm1, hpm2, asciiPm1, asciiPm2, maskOf_getLsbD, hstart, hlen]

theorem above255_iff (v : Option Half) : above255 v = true ↔ ∃ c, v = some c ∧ 255 < c.toNat := by
  cases v <;> simp [above255]

/-- pm2 has no bit but those of I, J and R (R212). -/
theorem asciiPm2_getLsbD (r : Record) {k : Nat} (hk : 3 ≤ k) : (asciiPm2 r).getLsbD k = false := by
  by_cases h16 : k < 16
  · rw [asciiPm2, maskOf_getLsbD _ h16]
    exact List.getD_eq_default _ _ hk
  · exact BitVec.getLsbD_of_ge _ _ (Nat.le_of_not_lt h16)

theorem asciiPm2_ne_zero_iff (r : Record) :
    (asciiPm2 r != 0) = true ↔ r.i.isSome = true ∨ r.j.isSome = true ∨ r.r.isSome = true := by
  unfold asciiPm2
  cases r.i.isSome <;> cases r.j.isSome <;> cases r.r.isSome <;> decide

/-- Bit 12 of pm1 says that the line needs a V2 frame (R212). -/
theorem asciiPm1_v2_iff (r : Record) (textMode : Bool) : (asciiPm1 r textMode).getLsbD 12 = true ↔
    (∃ v, r.mCode = some v ∧ 255 < v.toNat) ∨ (∃ v, r.gCode = some v ∧ 255 < v.toNat) ∨
      r.i.isSome = true ∨ r.j.isSome = true ∨ r.r.isSome = true := by
  rw [asciiPm1, maskOf_getLsbD _ (by decide), ← above255_iff, ← above255_iff, ← asciiPm2_ne_zero_iff, ← or_assoc,
    ← Bool.or_eq_true, ← Bool.or_eq_true]
  rfl

/-- A line in text mode has an M (R196). -/
theorem mpos_of_textMode {c : List Byte} (h : (asciiDecode c).textMode = true) :
    ∃ p, (asciiDecode c).mpos = some p := by
  obtain ⟨-, -, hmpos, hcode, htext, -⟩ := asciiDecode_eq c
  rw [htext, hcode] at h
  cases hm : findByte 0x4D (c.take ((findByte chStar c).getD c.length)) with
  | some p => exact ⟨p, hmpos.trans hm⟩
  | none =>
    rw [letterRead, List.take_take, Nat.min_self, hm] at h
    cases h

/-- The body lies in the line (R191). -/
theorem length_body (c : List Byte) : (c.take (asciiDecode c).bodyEnd).length = (asciiDecode c).bodyEnd := by
  obtain ⟨-, hend, -⟩ := asciiDecode_eq c
  rw [List.length_take, hend]
  cases h : findByte chStar c with
  | none => exact Nat.min_self _
  | some k => exact Nat.min_eq_left (Nat.le_of_lt (findByte_eq_some.1 h).1)

/-- A decimal field that holds what its letter gives reads that letter. -/
theorem letterReads_id {α : Type} {parse : List Byte → Option α} {ch : Byte} {body : List Byte} {lim : Nat}
    {field : Option α} (h : field = (letterRead parse ch body lim).join) : LetterReads parse id ch body lim field :=
  letterReads_of_letterRead (h.trans Option.map_id_apply.symm)

/-- Text mode is membership of the M code in TEXT_M (R196). -/
theorem textMode_iff (c : List Byte) : (asciiDecode c).textMode = true ↔
    ∃ code ∈ [23, 28, 29, 30, 32, 117, 3117], (asciiDecode c).cmd.mCode = some code := by
  obtain ⟨-, -, -, -, htext, -⟩ := asciiDecode_eq c
  rw [htext, Option.any_eq_true]
  exact exists_congr fun code => by rw [textM_contains_iff, and_comm]

/-- Settles O56: the decode field by field in what each letter gives, the text by its parts, and the masks by bits. -/
theorem asciiDecodeAndMasks : Obligations.AsciiDecodeAndMasks := by
  intro c w r body
  obtain ⟨hstar, hend, hmpos, hM, -, hN, hG, hX, hY, hZ, hE, hF, hT, hS, hP, hI, hJ, hR, hraw, hnone, hsome⟩ :=
    asciiDecode_eq c
  have hpm1 : r.pm1 = asciiPm1 r w.textMode := sealRecord_pm1 _
  have hpm2 : r.pm2 = asciiPm2 r := sealRecord_pm2 _
  have hbit {k : Nat} (hk : k < 16) : r.pm1.getLsbD k = _ := (congrArg (·.getLsbD k) hpm1).trans (maskOf_getLsbD _ hk)
  have hlen : body.length = w.bodyEnd := length_body c
  simp only [← hend] at hmpos hM hN hG hX hY hZ hE hF hT hS hP hI hJ hR hraw hsome
  refine ⟨fun habsent => ?_, fun k hk => ?_, fun p => ?_, ?_, textMode_iff c, ?_, hnone, ?_, asciiDecode_matchesMasks c,
    hbit (k := 7) (by decide), hbit (k := 13) (by decide), hbit (k := 14) (by decide), hbit (k := 15) (by decide),
    fun k hk => hpm2 ▸ asciiPm2_getLsbD r hk, hpm1 ▸ asciiPm1_v2_iff r w.textMode⟩
  · have hs : findByte chStar c = none := findByte_eq_none.2 habsent
    exact ⟨hstar.trans hs, by rw [hend, hs]; rfl⟩
  · have hs : findByte chStar c = some k := findByte_eq_some.2 hk
    exact ⟨hstar.trans hs, by rw [hend, hs]; rfl⟩
  · rw [hmpos]
    exact findByte_eq_some
  · rw [hlen]
    exact letterReads_of_letterRead hM
  · refine ⟨if w.textMode then w.mpos.getD 0 else w.bodyEnd, fun ht => ?_, fun ht => ?_, letterReads_of_letterRead hN,
      letterReads_of_letterRead hG, letterReads_id hX, letterReads_id hY, letterReads_id hZ, letterReads_id hE,
      letterReads_id hF, letterReads_of_letterRead hT, letterReads_of_letterRead hS, letterReads_of_letterRead hP,
      letterReads_id hI, letterReads_id hJ, letterReads_id hR, ?_⟩
    · obtain ⟨p, hp⟩ := mpos_of_textMode ht
      rw [if_pos ht, hp, Option.getD_some]
    · rw [ht, if_neg Bool.false_ne_true, hlen]
    · simp only [letterRead_eq_some_none] at hraw
      rw [hlen]
      exact hraw
  · intro mpos num gap word rest ht hp hparts
    obtain ⟨htextStart, htextLen⟩ := hsome ht
    obtain ⟨hstart, -⟩ := hparts.spans
    have hm : w.mpos.getD 0 = mpos := by rw [hp, Option.getD_some]
    rw [hm, hstart] at htextStart
    rw [hm, hparts.textLength_eq] at htextLen
    exact ⟨htextStart, htextLen⟩

end Sys2Proof.Machine
end

section
/-! # The Sequencer: its branches as exact next states, the failure path, and the resend recovery -/

namespace Sys2Proof.Machine

/-! ## The guards of SEQ -/

theorem Record.isLineReset_iff (r : Record) :
    r.isLineReset = true ↔ r.pm1.getLsbD 1 = true ∧ r.mCode = some 110 := by
  rw [isLineReset, Bool.and_eq_true, beq_iff_eq]
  rfl

theorem Record.isLineReset_eq_false_iff (r : Record) :
    r.isLineReset = false ↔ r.pm1.getLsbD 1 = false ∨ r.mCode ≠ some 110 := by
  rw [← Bool.not_eq_true, isLineReset_iff, not_and_or, Bool.not_eq_true]

/-- The low 16 bits of a word are its value modulo 65536. -/
theorem extractLsb'_16_eq_iff (v w : Word) :
    v.extractLsb' 0 16 = w.extractLsb' 0 16 ↔ v.toNat % 65536 = w.toNat % 65536 := by
  simp only [← BitVec.toNat_inj, BitVec.extractLsb'_toNat, Nat.shiftRight_zero, Nat.reducePow]

namespace State

theorem inSequence_eq_decide (s : State) (r : Record) :
    s.inSequence r = decide (r.line.toNat % 65536 = (s.lastAcceptedLine + 1).toNat % 65536) :=
  decide_eq_decide.2 (extractLsb'_16_eq_iff ..)

/-! ## The branches of SEQ -/

theorem sequence_of_isLineReset {s : State} {r : Record} (hreset : r.isLineReset = true) :
    s.sequence r = .ok (s.clearErrors.lineReset r) := if_pos hreset

theorem sequence_of_unnumbered {s : State} {r : Record} (hreset : r.isLineReset = false) (hnum : r.numbered = false) :
    s.sequence r = s.clearErrors.unnumbered r := by
  simp [sequence, hreset, hnum]

theorem sequence_of_inSequence {s : State} {r : Record} (hreset : r.isLineReset = false) (hnum : r.numbered = true)
    (hseq : s.inSequence r = true) : s.sequence r = s.clearErrors.accept r := by
  simp [sequence, hreset, hnum, hseq]

theorem sequence_of_gap {s : State} {r : Record} (hreset : r.isLineReset = false) (hnum : r.numbered = true)
    (hseq : s.inSequence r = false) (hsynced : s.awaiting = false) : s.sequence r = .ok s.clearErrors.gap := by
  simp [sequence, hreset, hnum, hseq, hsynced]

theorem sequence_of_skip {s : State} {r : Record} (hreset : r.isLineReset = false) (hnum : r.numbered = true)
    (hseq : s.inSequence r = false) (hwait : s.awaiting = true) : s.sequence r = .ok (s.clearErrors.skip r) := by
  simp [sequence, hreset, hnum, hseq, hwait]

theorem unnumbered_of_push {s u : State} {r : Record} (h : s.push r = .ok u) :
    s.unnumbered r = .ok (u.emit (.acknowledged none)) := by
  rw [unnumbered, h]

theorem accept_of_push {s u : State} {r : Record} (h : (s.advanceTo r.line).push r = .ok u) :
    s.accept r = .ok (u.emit (.acknowledged (some r.line))) := by
  rw [accept, h]

end State

/-! ## The row M110 by itself -/

theorem exec_m110_of_isLineReset {s : State} (h : s.work.cmd.isLineReset = true) :
    exec .m110 s = .next (s.consume.lineReset s.work.cmd) := if_pos h

theorem exec_m110_of_not_isLineReset {s : State} (h : s.work.cmd.isLineReset = false) :
    exec .m110 s = .next s.consume := if_neg (Bool.eq_false_iff.1 h)

/-- Settles O25: the reset branch of SEQ, and the row M110 on a record that is a reset and on one that is not. -/
theorem lineNumberReset : Obligations.LineNumberReset := by
  refine ⟨fun s r hbit hcode => ?_, fun s => ⟨fun hbit hcode => ?_, fun hother => ?_⟩⟩
  · exact State.sequence_of_isLineReset (r.isLineReset_iff.2 ⟨hbit, hcode⟩)
  · exact exec_m110_of_isLineReset ((Record.isLineReset_iff _).2 ⟨hbit, hcode⟩)
  · exact exec_m110_of_not_isLineReset ((Record.isLineReset_eq_false_iff _).2 hother)

/-- Settles O26: the unnumbered branch of SEQ, and a push with room. -/
theorem sequencerUnnumbered : Obligations.SequencerUnnumbered := by
  intro s r hother hnum hcount hslots
  have hpush := State.push_eq (s := s.clearErrors) r hcount hslots
  exact (State.sequence_of_unnumbered (r.isLineReset_eq_false_iff.2 hother) hnum).trans
    (State.unnumbered_of_push hpush)

/-- Settles O27: the accepting branch of SEQ, and a push with room. -/
theorem sequencerInSequence : Obligations.SequencerInSequence := by
  intro s r hother hnum hline hcount hslots
  have hseq : s.inSequence r = true := (s.inSequence_eq_decide r).trans (decide_eq_true hline)
  have hpush := State.push_eq (s := s.clearErrors.advanceTo r.line) r hcount hslots
  exact (State.sequence_of_inSequence (r.isLineReset_eq_false_iff.2 hother) hnum hseq).trans
    (State.accept_of_push hpush)

/-- Settles O28: the two branches of SEQ for a number that does not follow, told apart by `awaiting`. -/
theorem sequencerOutOfSequence : Obligations.SequencerOutOfSequence := by
  intro s r hother hnum hline
  have hreset : r.isLineReset = false := r.isLineReset_eq_false_iff.2 hother
  have hseq : s.inSequence r = false := (s.inSequence_eq_decide r).trans (decide_eq_false hline)
  refine ⟨fun hsynced => State.sequence_of_gap hreset hnum hseq hsynced, fun hwait => ?_⟩
  have hdone : decide (s.skipCount - 1 ≠ 0) = if s.skipCount - 1 = 0 then false else true := by simp
  rw [← hdone]
  exact State.sequence_of_skip hreset hnum hseq hwait

/-! ## The decode-failure path -/

/-- The event of R240 is ChecksumError for the two checksum kinds and FormatError for the other two. -/
theorem failureEvent_eq {k : ErrorKind} {e : Event}
    (h : (k = .checksumMismatch ∨ k = .missingChecksum) ∧ e = .checksumError k ∨
      (k = .fieldFormatError ∨ k = .missingRequiredField) ∧ e = .formatError k) : failureEvent k = e := by
  rcases h with ⟨rfl | rfl, rfl⟩ | ⟨rfl | rfl, rfl⟩ <;> rfl

namespace State

/-- The first two failures of a run ask for a resend (R241). -/
theorem fail_of_lt {s : State} (k : ErrorKind) (h : s.consecutiveFormatErrors.toNat < 2) :
    s.fail k = (s.countFailure k).resend := by
  have hlt : (s.countFailure k).consecutiveFormatErrors.toNat < 3 := by
    have hstep := countFailure_consecutiveFormatErrors s k
    bv_omega
  exact if_pos hlt

/-- The third failure of a run is forced through (R241). -/
theorem fail_of_eq {s : State} (k : ErrorKind) (h : s.consecutiveFormatErrors.toNat = 2) :
    s.fail k = (s.countFailure k).forceAccept := by
  have heq : s.consecutiveFormatErrors = 2 := BitVec.eq_of_toNat_eq h
  have hge : ¬ (s.countFailure k).consecutiveFormatErrors.toNat < 3 := by
    rw [countFailure_consecutiveFormatErrors, heq]
    decide
  exact if_neg hge

end State

/-- Settles O29: the failure counted, then the resend or the force-accept. -/
theorem failurePath : Obligations.FailurePath := by
  intro s k e hkind
  obtain rfl := failureEvent_eq hkind
  refine ⟨fun hbelow => ?_, fun hat => ?_⟩
  · rw [State.fail_of_lt k hbelow, State.resend, State.countFailure_events, List.append_assoc]
    rfl
  · rw [State.fail_of_eq k hat, State.forceAccept, State.countFailure_events, List.append_assoc]
    rfl

/-- Settles O30: two failures below the threshold, then one at it. -/
theorem thirdFailureForcesAcceptance : Obligations.ThirdFailureForcesAcceptance := by
  intro s k1 k2 k3 hclear s1 s2 s3 line
  have h1 : s1 = (s.countFailure k1).resend := State.fail_of_lt k1 (by rw [hclear]; decide)
  have hcount1 : s1.consecutiveFormatErrors = 1 := by
    rw [h1, State.resend_consecutiveFormatErrors, State.countFailure_consecutiveFormatErrors, hclear]
    rfl
  have h2 : s2 = (s1.countFailure k2).resend := State.fail_of_lt k2 (by rw [hcount1]; decide)
  have hcount2 : s2.consecutiveFormatErrors = 2 := by
    rw [h2, State.resend_consecutiveFormatErrors, State.countFailure_consecutiveFormatErrors, hcount1]
    rfl
  have h3 : s3 = (s2.countFailure k3).forceAccept := State.fail_of_eq k3 (by rw [hcount2]; rfl)
  clear_value s3 s2 s1
  have hlast : s3.lastAcceptedLine = line := by simp [h3, h2, h1, line]
  have hcount : s3.count = s.count := by simp [h3, h2, h1]
  have hslots : s3.slots = s.slots := by simp [h3, h2, h1]
  have hevents : s3.events = s.events ++ [failureEvent k1, .resendRequested line, failureEvent k2,
      .resendRequested line, failureEvent k3, .acknowledged (some line)] := by
    simp [h3, h2, h1, line]
  exact ⟨hcount1, hcount2, by simp [h3], by simp [h1], by simp [h2], by simp [h3], hlast, hcount, hslots, hevents⟩

/-! ## Resend recovery -/

/-- What the acceptance of a numbered command does to the registers, the queue and the events (R234). -/
structure State.Accepts (s : State) (r : Record) (t : State) : Prop where
  awaiting : t.awaiting = false
  lastAcceptedLine : t.lastAcceptedLine = r.line
  queue : t.queue = s.queue ++ [r]
  events : t.events = s.events ++ [.acknowledged (some r.line)]
  count : t.count = s.count + 1
  slots_length : t.slots.length = s.slots.length
  params : t.params = s.params

namespace State

/-- A command in sequence is accepted when the queue has room (R234). -/
theorem sequence_accepts {s : State} {r : Record} (hreset : r.isLineReset = false) (hnum : r.numbered = true)
    (hseq : s.inSequence r = true) (hcount : s.count < s.params.qcap) (hslots : s.slots.length = s.params.qcap) :
    ∃ t, s.sequence r = .ok t ∧ s.Accepts r t := by
  have hpush := push_eq (s := s.clearErrors.advanceTo r.line) r hcount hslots
  refine ⟨_, (sequence_of_inSequence hreset hnum hseq).trans (accept_of_push hpush), ?_⟩
  exact {
    awaiting := rfl
    lastAcceptedLine := rfl
    queue := (queue_push hpush :)
    events := rfl
    count := rfl
    slots_length := List.length_set
    params := rfl }

@[simp] theorem gap_lastAcceptedLine (s : State) : s.gap.lastAcceptedLine = s.lastAcceptedLine := rfl

@[simp] theorem gap_pendingResendLine (s : State) : s.gap.pendingResendLine = s.lastAcceptedLine + 1 := rfl

@[simp] theorem gap_events (s : State) : s.gap.events = s.events ++ [.resendRequested (s.lastAcceptedLine + 1)] := rfl

@[simp] theorem gap_queue (s : State) : s.gap.queue = s.queue := rfl

@[simp] theorem clearErrors_queue (s : State) : s.clearErrors.queue = s.queue := rfl

end State

/-- Settles O31: line 5 is a gap after line 3, line 4 then follows 3, and line 5 follows 4. -/
theorem resendRecovery : Obligations.ResendRecovery := by
  intro s r4 r5 hsynced hlast hevents _ hroom hslots hnum4 hm4 hline4 hnum5 hm5 hline5
  have hreset4 : r4.isLineReset = false := r4.isLineReset_eq_false_iff.2 (.inl hm4)
  have hreset5 : r5.isLineReset = false := r5.isLineReset_eq_false_iff.2 (.inl hm5)
  have h4 : r4.line = 4 := by rw [Record.line, hline4]; rfl
  have h5 : r5.line = 5 := by rw [Record.line, hline5]; rfl
  have hgap5 : s.inSequence r5 = false := by
    rw [State.inSequence_eq_decide, h5, hlast]
    decide
  have hseq4 : s.clearErrors.gap.inSequence r4 = true := by
    rw [State.inSequence_eq_decide, h4, State.gap_lastAcceptedLine, State.clearErrors_lastAcceptedLine, hlast]
    decide
  obtain ⟨s2, hs2, a4⟩ := State.sequence_accepts hreset4 hnum4 hseq4 (Nat.lt_of_succ_lt hroom) hslots
  have hseq5 : s2.inSequence r5 = true := by
    rw [State.inSequence_eq_decide, h5, a4.lastAcceptedLine, h4]
    decide
  have hcount2 : s2.count < s2.params.qcap := by rwa [a4.count, a4.params]
  have hslots2 : s2.slots.length = s2.params.qcap := by rwa [a4.slots_length, a4.params]
  obtain ⟨s3, hs3, a5⟩ := State.sequence_accepts hreset5 hnum5 hseq5 hcount2 hslots2
  have hqueue : s3.queue = s.queue ++ [r4, r5] := by
    simp [a5.queue, a4.queue]
  have hev : s3.events = [.resendRequested 4, .acknowledged (some 4), .acknowledged (some 5)] := by
    simp [a5.events, a4.events, h4, h5, hevents, hlast]
  have hpending : s.clearErrors.gap.pendingResendLine = 4 := by simp [hlast]
  exact ⟨s.clearErrors.gap, s2, s3, State.sequence_of_gap hreset5 hnum5 hgap5 hsynced, hs2, hs3, rfl, hpending, rfl,
    a4.awaiting, a4.lastAcceptedLine.trans h4, a5.lastAcceptedLine.trans h5, hqueue, hev⟩

end Sys2Proof.Machine
end

section
/-! # The intake, branch by branch: admission, classification, and what each kind of byte makes of the state -/

namespace Sys2Proof.Machine

namespace State

/-! ## Admission and classification -/

theorem refusal_of_full {s : State} (h : s.count = s.params.qcap) : s.refusal = some .queueFull := if_pos h

theorem refusal_of_busy {s : State} (hc : s.count ≠ s.params.qcap) (hb : s.payloadBusy = true) :
    s.refusal = some .payloadInUse := (if_neg hc).trans (if_pos hb)

theorem refusal_of_admits {s : State} (h : s.admits) : s.refusal = none := by
  obtain ⟨hc, hb⟩ := h
  simp [refusal, hc, hb]

theorem admits_of_room {s : State} (hc : s.count < s.params.qcap) (hb : s.payloadBusy = false) : s.admits :=
  ⟨hc.ne, hb⟩

/-- The state after the admission of a byte (R261): its word is taken and the response given. -/
def admitted (s : State) : State := s.consume.respond .accepted

/-- The state in which an admitted byte meets its branch of R260: a first byte is classified (R263). -/
def received (s : State) (b : Byte) (src : Bool) : State := s.admitted.classifyFirst b src

theorem classifyFirst_of_first {s : State} (b : Byte) (src : Bool) (hc : s.cursor = 0) (hm : s.comment = false) :
    s.classifyFirst b src = s.classify b src := by
  rcases s.classifyFirst_cases b src with ⟨-, -, h⟩ | ⟨hn, -⟩
  · exact h
  · exact absurd ⟨hc, hm⟩ hn

theorem classifyFirst_of_later {s : State} (b : Byte) (src : Bool) (h : s.cursor ≠ 0 ∨ s.comment = true) :
    s.classifyFirst b src = s := by
  rcases s.classifyFirst_cases b src with ⟨hc, hm, -⟩ | ⟨-, he⟩
  · simp [hc, hm] at h
  · exact he

theorem received_of_first {s : State} (b : Byte) (src : Bool) (hc : s.cursor = 0) (hm : s.comment = false) :
    s.received b src = { s with
      binMode := b.getLsbD 7, frameSrc := src, frameLen := 0
      response := .accepted, events := [], port := s.port.tail } :=
  classifyFirst_of_first (s := s.admitted) b src hc hm

theorem received_of_later {s : State} (b : Byte) (src : Bool) (h : s.cursor ≠ 0 ∨ s.comment = true) :
    s.received b src = s.admitted := classifyFirst_of_later (s := s.admitted) b src h

/-- Outside a comment, first byte or not (R263). -/
theorem received_eq {s : State} (b : Byte) (src : Bool) (hm : s.comment = false) : s.received b src = { s with
    binMode := if s.cursor = 0 then b.getLsbD 7 else s.binMode
    frameSrc := if s.cursor = 0 then src else s.frameSrc
    frameLen := if s.cursor = 0 then 0 else s.frameLen
    response := .accepted, events := [], port := s.port.tail } := by
  by_cases hc : s.cursor = 0
  · simp only [received_of_first b src hc hm, if_pos hc]
  · simp only [received_of_later b src (.inl hc), if_neg hc]
    rfl

end State

theorem exec_byte_of_refusal {s : State} {k : ErrorKind} (b : Byte) (src : Bool) (h : s.refusal = some k) :
    exec (.byte b src) s = .next { s with response := .refused k, events := [], port := s.port.tail } := by
  change execByte b src s = _
  simp only [execByte, h]
  rfl

theorem exec_byte_of_admits {s : State} (b : Byte) (src : Bool) (h : s.admits) :
    exec (.byte b src) s = finish (s.admitted.intake b src) := by
  change execByte b src s = _
  simp only [execByte, State.refusal_of_admits h]
  rfl

/-- An admitted byte of an ASCII line (R260). -/
theorem exec_byte_of_line {s : State} {b : Byte} {src : Bool} (h : s.admits)
    (hm : (s.received b src).binMode = false) : exec (.byte b src) s = finish ((s.received b src).asciiByte b) :=
  (exec_byte_of_admits b src h).trans (congrArg finish (if_neg (Bool.eq_false_iff.1 hm)))

/-- An admitted byte of a binary frame (R260). -/
theorem exec_byte_of_frame {s : State} {b : Byte} {src : Bool} (h : s.admits)
    (hm : (s.received b src).binMode = true) : exec (.byte b src) s = finish ((s.received b src).binaryByte b) :=
  (exec_byte_of_admits b src h).trans (congrArg finish (if_pos hm))

/-! ## The response of an admitted byte -/

namespace State

theorem push_response {s t : State} {r : Record} (h : s.push r = .ok t) : t.response = s.response := by
  obtain ⟨-, -, rfl⟩ := push_cases h
  rfl

theorem sequence_response {s t : State} {r : Record} (h : s.sequence r = .ok t) : t.response = s.response := by
  rcases sequence_cases h with ⟨-, rfl⟩ | ⟨-, -, u, hu, rfl⟩ | ⟨-, -, -, u, hu, rfl⟩ | ⟨-, -, -, -, rfl⟩ |
    ⟨-, -, -, -, rfl⟩
  · rfl
  · exact (push_response hu :)
  · exact (push_response hu :)
  · rfl
  · rfl

theorem terminateText_response (s : State) (w : Work) (l : Nat) : (s.terminateText w l).response = s.response := by
  rcases s.terminateText_cases w l with h | h <;> rw [h]

theorem completeBinary_response {s t : State} {l : Nat} (h : s.completeBinary l = .ok t) :
    t.response = s.response := by
  obtain ⟨-, -, ⟨-, rfl⟩ | ⟨-, w, -, hw⟩⟩ := completeBinary_cases h
  · rw [fail_response, leaveFrame_response]
  · rw [sequence_response hw, terminateText_response, leaveFrame_response]

theorem completeAscii_response {s t : State} {n : Nat} (h : s.completeAscii n = .ok t) :
    t.response = s.response := by
  obtain ⟨-, ⟨k, -, rfl⟩ | ⟨-, hq⟩⟩ := completeAscii_cases h
  · exact s.fail_response k
  · exact sequence_response hq

theorem endLine_response {s t : State} (h : s.endLine = .ok t) : t.response = s.response := by
  rcases endLine_cases h with ⟨-, rfl⟩ | ⟨-, h⟩
  · rfl
  · exact (completeAscii_response h :)

theorem asciiByte_response {s t : State} {b : Byte} (h : s.asciiByte b = .ok t) : t.response = s.response := by
  rcases asciiByte_cases h with ⟨-, -, h⟩ | ⟨-, -, rfl⟩ | ⟨-, -, h⟩ | ⟨-, -, -, rfl⟩ | ⟨-, -, -, -, rfl⟩ |
    ⟨-, -, -, -, h⟩
  · exact (endLine_response h :)
  · rfl
  · exact endLine_response h
  · rfl
  · rw [overflow, fail_response]
  · obtain ⟨-, rfl⟩ := storeByte_cases h
    rfl

theorem binaryByte_response {s t : State} {b : Byte} (h : s.binaryByte b = .ok t) : t.response = s.response := by
  obtain ⟨u, hu, hc⟩ := binaryByte_cases h
  have hstored : u.learnSize.response = s.response := by
    obtain ⟨-, rfl⟩ := storeByte_cases hu
    rcases learnSize_cases _ with ⟨n, -, -, -, -, hl⟩ | hl <;> rw [hl]
  rcases hc with ⟨-, -, hc⟩ | ⟨-, rfl⟩
  · rw [completeBinary_response hc, hstored]
  · exact hstored

theorem intake_response {s t : State} {b : Byte} {src : Bool} (h : s.intake b src = .ok t) :
    t.response = s.response := by
  have hfirst : (s.classifyFirst b src).response = s.response := by
    rcases s.classifyFirst_cases b src with ⟨-, -, he⟩ | ⟨-, he⟩ <;> rw [he]
    rfl
  rcases intake_cases h with ⟨-, h⟩ | ⟨-, h⟩
  · rw [binaryByte_response h, hfirst]
  · rw [asciiByte_response h, hfirst]

end State

/-- Settles O13: the refusal comes before the byte is looked at, and no part of the intake answers anew. -/
theorem admissionOfBytes : Obligations.AdmissionOfBytes := by
  intro b src s
  refine ⟨fun hfull => ?_, fun hroom hbusy => ?_, fun hadmits t ht => ?_⟩
  · exact exec_byte_of_refusal b src (State.refusal_of_full hfull)
  · exact exec_byte_of_refusal b src (State.refusal_of_busy hroom hbusy)
  · rw [exec_byte_of_admits b src hadmits] at ht
    exact State.intake_response (finish_next.1 ht)

/-- Settles O14: both rows are the classification of R263, which bit 7 of the byte decides. -/
theorem firstByteRowsClassify : Obligations.FirstByteRowsClassify := by
  intro b src s
  refine ⟨fun hc hm => ⟨fun hwf => ?binary, fun hwf => ?ascii⟩, fun hlater => ?later⟩
  case binary =>
    have h7 : b.getLsbD 7 = true := hwf
    have h := State.classifyFirst_of_first (s := s.consume) b src hc hm
    rw [State.classify, h7] at h
    exact congrArg Host.Outcome.next h
  case ascii =>
    have h7 : b.getLsbD 7 = false := by simpa only [Instr.wf, Bool.not_eq_true'] using hwf
    have h := State.classifyFirst_of_first (s := s.consume) b src hc hm
    rw [State.classify, h7] at h
    exact congrArg Host.Outcome.next h
  case later =>
    have h := State.classifyFirst_of_later (s := s.consume) b src hlater
    exact ⟨congrArg Host.Outcome.next h, congrArg Host.Outcome.next h⟩

/-- Settles O15: only the classification reads the source, and a later byte is not classified. -/
theorem laterSourcesAreIgnored : Obligations.LaterSourcesAreIgnored := by
  intro b src src' s hlater
  have hfirst (src : Bool) : (s.consume.respond .accepted).classifyFirst b src = s.admitted :=
    State.received_of_later b src hlater
  change execByte b src s = execByte b src' s
  simp only [execByte, State.intake, hfirst]

end Sys2Proof.Machine
end

section
/-! # A byte of an ASCII line: stored, dropped, a comment's start, a line's end, or one too many -/

namespace Sys2Proof.Machine

/-! ## The structural bytes -/

theorem endsComment_iff (b : Byte) : endsComment b = true ↔ b = 0x00 ∨ b = 0x0A ∨ b = 0x0D := by
  simp only [endsComment, Bool.or_eq_true, beq_iff_eq, or_assoc]
  rfl

theorem endsLine_iff (b : Byte) : endsLine b = true ↔ b = 0x00 ∨ b = 0x0A ∨ b = 0x0D ∨ b = 0x3A := by
  simp only [endsLine, Bool.or_eq_true, endsComment_iff, beq_iff_eq, or_assoc]
  rfl

theorem endsComment_eq_false {b : Byte} (h0 : b ≠ 0x00) (hA : b ≠ 0x0A) (hD : b ≠ 0x0D) : endsComment b = false := by
  rw [Bool.eq_false_iff, Ne, endsComment_iff]
  tauto

theorem endsLine_eq_false {b : Byte} (h0 : b ≠ 0x00) (hA : b ≠ 0x0A) (hD : b ≠ 0x0D) (hcolon : b ≠ 0x3A) :
    endsLine b = false := by
  rw [Bool.eq_false_iff, Ne, endsLine_iff]
  tauto

/-- No terminator is the first byte of a frame (R85). -/
theorem getLsbD_seven_of_endsLine {b : Byte} (h : endsLine b = true) : b.getLsbD 7 = false := by
  rcases (endsLine_iff b).1 h with rfl | rfl | rfl | rfl <;> rfl

namespace State

/-! ## The branches of a line -/

theorem asciiByte_of_dropped {s : State} {b : Byte} (hm : s.comment = true) (he : endsComment b = false) :
    s.asciiByte b = .ok s := by
  simp [asciiByte, hm, he]

theorem asciiByte_of_semicolon {s : State} (hm : s.comment = false) : s.asciiByte 0x3B = .ok s.startComment := by
  have he : endsLine 0x3B = false := rfl
  simp only [asciiByte, hm, he, chSemicolon, Bool.false_eq_true, if_false, if_true]

theorem asciiByte_of_overflow {s : State} {b : Byte} (hm : s.comment = false) (he : endsLine b = false)
    (hs : b ≠ chSemicolon) (hc : s.cursor.toNat = s.params.maxCmdLen) : s.asciiByte b = .ok s.overflow := by
  simp [asciiByte, hm, he, hs, hc]

theorem asciiByte_of_stored {s : State} {b : Byte} (hm : s.comment = false) (he : endsLine b = false)
    (hs : b ≠ chSemicolon) (hc : s.cursor.toNat ≠ s.params.maxCmdLen) : s.asciiByte b = s.storeByte b := by
  simp [asciiByte, hm, he, hs, hc]

/-- Outside a comment there is none to end. -/
theorem endComment_eq_endLine {s : State} (hm : s.comment = false) : s.endComment = s.endLine := by
  have hs : ({ s with comment := false } : State) = s := by rw [← hm]
  rw [endComment, hs]

/-- A terminator, in a comment or not, ends the comment and the line (R268, R269). -/
theorem asciiByte_of_terminator {s : State} {b : Byte} (he : endsLine b = true)
    (hm : s.comment = true → endsComment b = true) : s.asciiByte b = s.endComment := by
  cases hc : s.comment with
  | true => simp [asciiByte, hc, hm hc]
  | false => simp [asciiByte, hc, he, endComment_eq_endLine hc]

/-! ## The end of a line -/

theorem endComment_of_empty {s : State} (h : s.cursor = 0) : s.endComment = .ok { s with comment := false } := if_pos h

theorem completeAscii_of_failure {s : State} {n : Nat} {k : ErrorKind} (hn : n ≤ s.params.accLen)
    (hk : asciiFailure s.cfgChecksumMandatory s.frameSrc (asciiDecode (Memory.slice s.acc 0 n)) = some k) :
    s.completeAscii n = .ok (s.fail k) := by
  have hc : memBytes s.params.accLen s.acc 0 n = .ok (Memory.slice s.acc 0 n) := memBytes_eq s.acc (by omega)
  simp only [completeAscii, hc, hk]

theorem completeAscii_of_valid {s : State} {n : Nat} (hn : n ≤ s.params.accLen)
    (hk : asciiFailure s.cfgChecksumMandatory s.frameSrc (asciiDecode (Memory.slice s.acc 0 n)) = none) :
    s.completeAscii n = s.sequence (asciiDecode (Memory.slice s.acc 0 n)).cmd := by
  have hc : memBytes s.params.accLen s.acc 0 n = .ok (Memory.slice s.acc 0 n) := memBytes_eq s.acc (by omega)
  simp only [completeAscii, hc, hk]

theorem endComment_of_stored {s : State} (h : s.cursor ≠ 0) :
    s.endComment = ({ s with comment := false, cursor := 0 } : State).completeAscii s.cursor.toNat := if_neg h

/-- What the end of a line with stored bytes leads to (R269): FAIL with the error kind of its content, or its record
sequenced, which a queue with room lets complete. -/
theorem finish_endComment {s : State} (hne : s.cursor ≠ 0) (hle : s.cursor.toNat ≤ s.params.accLen)
    (hroom : s.count < s.params.qcap) (hslots : s.slots.length = s.params.qcap) :
    let w := asciiDecode (Memory.slice s.acc 0 s.cursor.toNat)
    let s0 : State := { s with comment := false, cursor := 0 }
    (∀ k, asciiFailure s.cfgChecksumMandatory s.frameSrc w = some k → finish s.endComment = .next (s0.fail k)) ∧
    (asciiFailure s.cfgChecksumMandatory s.frameSrc w = none →
      ∃ t, s0.sequence w.cmd = .ok t ∧ finish s.endComment = .next t) := by
  intro w s0
  rw [endComment_of_stored hne]
  refine ⟨fun k hk => ?_, fun hk => ?_⟩
  · exact finish_next.2 (completeAscii_of_failure (s := s0) hle hk)
  · obtain ⟨t, ht⟩ := sequence_completes s0 w.cmd hroom hslots
    exact ⟨t, ht, finish_next.2 ((completeAscii_of_valid (s := s0) hle hk).trans ht)⟩

end State

/-! ## The rows of the structural bytes -/

theorem State.hardTerminator_of_line {s : State} (hb : s.binMode = false) : s.hardTerminator = s.endComment := by
  cases hm : s.comment with
  | true => simp [hardTerminator, hb, hm]
  | false => simp [hardTerminator, hb, hm, endComment_eq_endLine hm]

/-- A terminator row that applies ends the comment and the line (R93, R268, R269). -/
theorem exec_terminatorRow {i : Instr} {s : State} (hi : i = .termNul ∨ i = .termLf ∨ i = .termCr ∨ i = .termColon)
    (hb : s.binMode = false) (hm : i = .termColon → s.comment = false) : exec i s = finish s.consume.endComment := by
  have hhard := congrArg finish (State.hardTerminator_of_line (s := s.consume) hb)
  rcases hi with rfl | rfl | rfl | rfl
  · exact hhard
  · exact hhard
  · exact hhard
  · have hm := hm rfl
    rw [State.endComment_eq_endLine (s := s.consume) hm]
    change execTermColon s = _
    simp [execTermColon, hb, hm]

/-- A terminator row that does not apply changes nothing: in a frame its byte is data (R265), and a ':' in a comment is
dropped (R268). -/
theorem exec_terminatorRow_idle {i : Instr} {s : State}
    (hi : i = .termNul ∨ i = .termLf ∨ i = .termCr ∨ i = .termColon)
    (h : s.binMode = true ∨ i = .termColon ∧ s.comment = true) : exec i s = .next s.consume := by
  have hhard (hb : s.binMode = true) : finish s.consume.hardTerminator = .next s.consume :=
    finish_next.2 (if_pos hb)
  have hcolon (h : s.binMode = true ∨ s.comment = true) : execTermColon s = .next s.consume :=
    if_pos (Bool.or_eq_true_iff.2 h)
  rcases hi with rfl | rfl | rfl | rfl
  · exact hhard (h.resolve_right (by simp))
  · exact hhard (h.resolve_right (by simp))
  · exact hhard (h.resolve_right (by simp))
  · exact hcolon (h.imp_right And.right)

/-- Settles O22: the end of the line with the word off the port. -/
theorem terminatorRowsCompleteTheLine : Obligations.TerminatorRowsCompleteTheLine := by
  intro i s hi
  refine ⟨exec_terminatorRow_idle hi, fun hb hm hne hle hroom hslots => ?_⟩
  rw [exec_terminatorRow hi hb hm]
  exact State.finish_endComment (s := s.consume) hne hle hroom hslots

/-- A terminator received in a line ends it, and a comment with it (R268, R269). -/
theorem exec_byte_of_terminator {s : State} {b : Byte} {src : Bool} (ha : s.admits)
    (hb : (s.received b src).binMode = false) (he : endsLine b = true)
    (hm : (s.received b src).comment = true → endsComment b = true) :
    exec (.byte b src) s = finish (s.received b src).endComment := by
  rw [exec_byte_of_line ha hb, State.asciiByte_of_terminator he hm]

/-- Settles O23: the end of the line in the state that has received the terminator. -/
theorem terminatorByteCompletesTheLine : Obligations.TerminatorByteCompletesTheLine := by
  intro b src s hbusy hroom hslots hterm hb hne hle
  have hreceived := State.received_of_later b src (.inl hne)
  have he : endsLine b = true := (endsLine_iff b).2 (by tauto)
  have hm : s.comment = true → endsComment b = true := by
    intro hm
    rw [endsComment_iff]
    simpa [hm] using hterm
  have hexec := exec_byte_of_terminator (src := src) (State.admits_of_room hroom hbusy)
    (by rw [hreceived]; exact hb) he (by rw [hreceived]; exact hm)
  rw [hexec, hreceived]
  exact State.finish_endComment (s := s.admitted) hne hle hroom hslots

/-- Settles O21: an empty line's end clears the comment flag alone, and outside a comment its terminator is classified
as a first byte, of a line. -/
theorem emptyLineIsIgnored : Obligations.EmptyLineIsIgnored := by
  intro s hc
  refine ⟨fun hb => ?rows, fun b src ha hm hterm => ?byte, fun b src ha hm hb hterm => ?inComment⟩
  case rows =>
    have hempty := congrArg finish (State.endComment_of_empty (s := s.consume) hc)
    have hrow {i : Instr} (hi : i = .termNul ∨ i = .termLf ∨ i = .termCr ∨ i = .termColon)
        (hm : i = .termColon → s.comment = false) := (exec_terminatorRow hi hb hm).trans hempty
    refine ⟨hrow (by simp) (by simp), hrow (by simp) (by simp), hrow (by simp) (by simp), ?_⟩
    by_cases hm : s.comment = true
    · exact exec_terminatorRow_idle (by simp) (.inr ⟨rfl, hm⟩)
    · have hm : s.comment = false := Bool.eq_false_iff.2 hm
      rw [hrow (by simp) fun _ => hm, ← hm]
      rfl
  case byte =>
    have he : endsLine b = true := (endsLine_iff b).2 hterm
    have hreceived := State.received_of_first b src hc hm
    rw [getLsbD_seven_of_endsLine he] at hreceived
    rw [exec_byte_of_terminator ha (by rw [hreceived]) he (by simp [hreceived, hm]), hreceived,
      State.endComment_of_empty (by exact hc), ← hm]
    rfl
  case inComment =>
    have he : endsComment b = true := (endsComment_iff b).2 hterm
    have hreceived := State.received_of_later b src (.inr hm)
    rw [exec_byte_of_terminator ha (by rw [hreceived]; exact hb) (by simp [endsLine, he]) fun _ => he, hreceived,
      State.endComment_of_empty (by exact hc)]
    rfl

/-- Settles O20: the byte ';' and its row start a comment, and the bytes of a comment are dropped. -/
theorem commentsAreSuppressed : Obligations.CommentsAreSuppressed := by
  intro s
  refine ⟨fun hb hm => ?row, fun h => ?idleRow, fun src ha hm hne hb => ?later, fun src ha hm hc => ?first,
    fun b src ha hm hb h0 hA hD => ?dropped⟩
  case row => exact if_neg (by simp [hb, hm])
  case idleRow => exact if_pos (Bool.or_eq_true_iff.2 h)
  case later =>
    have hreceived := State.received_of_later 0x3B src (.inl hne)
    rw [exec_byte_of_line ha (by rw [hreceived]; exact hb), hreceived, State.asciiByte_of_semicolon (by exact hm)]
    rfl
  case first =>
    have hreceived := State.received_of_first 0x3B src hc hm
    rw [exec_byte_of_line ha (by rw [hreceived]; rfl), hreceived, State.asciiByte_of_semicolon (by exact hm)]
    rfl
  case dropped =>
    have hreceived := State.received_of_later b src (.inr hm)
    rw [exec_byte_of_line ha (by rw [hreceived]; exact hb), hreceived,
      State.asciiByte_of_dropped (by exact hm) (endsComment_eq_false h0 hA hD)]
    rfl

/-- Settles O24: the byte is no structural byte and finds no room. -/
theorem asciiOverflowFails : Obligations.AsciiOverflowFails := by
  intro b src s ha hm hne hb h0 hA hD hcolon hsemi hc
  have hreceived := State.received_of_later b src (.inl hne)
  rw [exec_byte_of_line ha (by rw [hreceived]; exact hb), hreceived,
    State.asciiByte_of_overflow (by exact hm) (endsLine_eq_false h0 hA hD hcolon) hsemi (by exact hc)]
  rfl

/-! ## Stored bytes -/

/-- The state with a byte stored at the cursor (R265, R272). -/
def State.withByte (s : State) (b : Byte) : State :=
  { s with acc := Memory.write s.acc s.cursor.toNat b, cursor := s.cursor + 1 }

namespace State

theorem storeByte_eq_withByte {s : State} (b : Byte) (h : s.cursor.toNat < s.params.accLen) :
    s.storeByte b = .ok (s.withByte b) := storeByte_eq b h

theorem withByte_read {s : State} (hwf : Memory.wf s.acc = true) (b : Byte) (a : Nat) :
    Memory.read (s.withByte b).acc a = if a = s.cursor.toNat then b else Memory.read s.acc a := Memory.read_write hwf

end State

/-- Settles O16: a byte of a line with room, and a read after a write. -/
theorem asciiByteIsStored : Obligations.AsciiByteIsStored := by
  intro b src s ha hwf hm hfirst hlater h0 hA hD hcolon hsemi hmax hlt
  have hreceived := State.received_eq b src hm
  have hmode : (if s.cursor = 0 then b.getLsbD 7 else s.binMode) = false := by
    split
    next hc => exact hfirst hc
    next hc => exact hlater hc
  rw [hmode] at hreceived
  refine ⟨(s.received b src).withByte b, ?_, ?_, ?_⟩
  · rw [exec_byte_of_line ha (by rw [hreceived]), hreceived,
      State.asciiByte_of_stored (by exact hm) (endsLine_eq_false h0 hA hD hcolon) hsemi (by exact hmax)]
    exact finish_next.2 (State.storeByte_eq_withByte b hlt)
  · rw [hreceived]
    exact State.withByte_read hwf b
  · rw [hreceived]
    rfl

end Sys2Proof.Machine
end

section
/-! # A byte of a binary frame: stored, the header's last, or the frame's last -/

namespace Sys2Proof.Machine

namespace State

/-! ## The branches of a frame -/

theorem binaryByte_eq {s : State} (b : Byte) (hroom : s.cursor.toNat < s.params.accLen) :
    s.binaryByte b = (s.withByte b).learnSize.completeIfWhole := by
  simp only [binaryByte, storeByte_eq_withByte b hroom]

theorem completeIfWhole_of_partial {s : State} (h : s.frameLen = 0 ∨ s.cursor ≠ s.frameLen) :
    s.completeIfWhole = .ok s := by
  refine if_neg fun ⟨hlen, hwhole⟩ => ?_
  rcases h with h | h
  · exact hlen h
  · exact h hwhole

theorem completeIfWhole_of_whole {s : State} (hlen : s.frameLen ≠ 0) (hwhole : s.cursor = s.frameLen) :
    s.completeIfWhole = s.completeBinary s.frameLen.toNat := if_pos ⟨hlen, hwhole⟩

/-- The first byte of a frame, or one inside a frame of known length, is stored and no more (R265). -/
theorem binaryByte_of_inside {s : State} (b : Byte) (hroom : s.cursor.toNat < s.params.accLen)
    (h : s.frameLen = 0 ∧ s.cursor = 0 ∨ s.frameLen ≠ 0 ∧ s.cursor + 1 ≠ s.frameLen) :
    s.binaryByte b = .ok (s.withByte b) := by
  have hself : (s.withByte b).learnSize = s.withByte b := by
    refine learnSize_eq_self ?_
    rcases h with ⟨-, hc⟩ | ⟨hlen, -⟩
    · refine .inr (.inl ?_)
      change (s.cursor + 1).toNat < 2
      rw [hc]
      decide
    · exact .inl hlen
  rw [binaryByte_eq b hroom, hself]
  exact completeIfWhole_of_partial (h.imp And.left And.right)

/-- A header byte after the first is stored, and the length of the frame is `FS.size` of the header once that is whole
(R266), which no byte of a header ends (R123). -/
theorem binaryByte_of_header {s : State} (b : Byte) (hwf : Memory.wf s.acc = true) (hlen : s.frameLen = 0)
    (hpos : 1 ≤ s.cursor.toNat) (hlt : s.cursor.toNat < 5) :
    let h := Memory.slice s.acc 0 s.cursor.toNat ++ [b]
    ∃ len : Byte, s.binaryByte b = .ok { s.withByte b with frameLen := len } ∧
      (h.length = fsNeed h → fsSize h = some len.toNat) ∧ (h.length ≠ fsNeed h → len = 0) := by
  intro h
  have hcursor : (s.withByte b).cursor.toNat = s.cursor.toNat + 1 := by
    change (s.cursor + 1).toNat = _
    bv_omega
  have hlength : (s.withByte b).cursor.toNat = h.length := by simp [hcursor, h]
  have hslice : Memory.slice (s.withByte b).acc 0 (s.withByte b).cursor.toNat = h := by
    rw [hcursor]
    exact Memory.slice_write_end hwf _ b
  have hsize := maxFrame_le_accLen s.params
  rw [binaryByte_eq b (by omega)]
  by_cases hwhole : h.length = fsNeed h
  · obtain ⟨n, hn⟩ : ∃ n, fsSize h = some n := ⟨_, fsSize_eq (by omega) hwhole.ge⟩
    obtain ⟨hlow, hhigh⟩ := fsSize_bounds hn
    have hto : (BitVec.ofNat 8 n).toNat = n := by rw [BitVec.toNat_ofNat, Nat.mod_eq_of_lt (by omega)]
    have hlearn : (s.withByte b).learnSize = { s.withByte b with frameLen := BitVec.ofNat 8 n } :=
      learnSize_eq hlen (by omega) (by rw [hslice, hlength, hwhole]) (by rw [hslice, hn])
    have hne : (s.withByte b).cursor ≠ BitVec.ofNat 8 n := fun he => by
      have := congrArg BitVec.toNat he
      omega
    refine ⟨BitVec.ofNat 8 n, ?_, fun _ => by rw [hto, hn], fun hne => absurd hwhole hne⟩
    rw [hlearn]
    exact completeIfWhole_of_partial (.inr hne)
  · have hself : (s.withByte b).learnSize = s.withByte b :=
      learnSize_eq_self (.inr (.inr (by rwa [hslice, hlength])))
    refine ⟨s.frameLen, ?_, fun he => absurd he hwhole, fun _ => hlen⟩
    rw [hself]
    exact completeIfWhole_of_partial (.inl hlen)

/-- The byte that brings the cursor to the known length completes the frame (R267). -/
theorem binaryByte_of_last {s : State} (b : Byte) (hlast : s.cursor.toNat + 1 = s.frameLen.toNat)
    (hle : s.frameLen.toNat ≤ s.params.accLen) :
    s.binaryByte b = (s.withByte b).completeBinary s.frameLen.toNat := by
  have hlen : (s.withByte b).frameLen ≠ 0 := by
    change s.frameLen ≠ 0
    bv_omega
  have hwhole : (s.withByte b).cursor = (s.withByte b).frameLen := by
    change s.cursor + 1 = s.frameLen
    bv_omega
  rw [binaryByte_eq b (by omega), learnSize_eq_self (.inl hlen)]
  exact completeIfWhole_of_whole hlen hwhole

/-! ## The end of a frame -/

theorem completeBinary_of_invalid {s : State} {l : Nat} (h2 : 2 ≤ l) (hle : l ≤ s.params.accLen)
    (hv : frameValid (Memory.slice s.acc 0 l) = false) :
    s.completeBinary l = .ok (s.leaveFrame.fail .checksumMismatch) := by
  have hbytes : memBytes s.params.accLen s.acc 0 l = .ok (Memory.slice s.acc 0 l) := memBytes_eq s.acc (by omega)
  simp only [completeBinary, if_neg (Nat.not_lt.2 h2), hbytes, hv, Bool.not_false, if_true]

theorem completeBinary_of_valid {s : State} {l : Nat} {w : Work} (h2 : 2 ≤ l) (hle : l ≤ s.params.accLen)
    (hv : frameValid (Memory.slice s.acc 0 l) = true) (hw : binaryDecode s.params.accLen s.acc = .ok w) :
    s.completeBinary l = (s.leaveFrame.terminateText w l).sequence w.cmd := by
  have hbytes : memBytes s.params.accLen s.acc 0 l = .ok (Memory.slice s.acc 0 l) := memBytes_eq s.acc (by omega)
  simp only [completeBinary, if_neg (Nat.not_lt.2 h2), hbytes, hv, hw, Bool.not_true, Bool.false_eq_true, if_false]

theorem terminateText_eq (s : State) (w : Work) (l : Nat) : s.terminateText w l =
    { s with acc := if w.bf1.getLsbD 15 then Memory.write s.acc (l - 2) 0 else s.acc } := by
  unfold terminateText
  split <;> rfl

end State

/-- The frame in acc is valid exactly when its last two bytes are the dual-sum of those before them (R141 to R143). -/
theorem frameValid_slice_iff (m : List Host.Cell) {l : Nat} (h2 : 2 ≤ l) :
    frameValid (Memory.slice m 0 l) = true ↔
      Memory.read m (l - 2) = (dualSum (Memory.slice m 0 (l - 2))).1 ∧
      Memory.read m (l - 1) = (dualSum (Memory.slice m 0 (l - 2))).2 := by
  obtain ⟨n, rfl⟩ := Nat.exists_eq_add_of_le' h2
  have hsplit : Memory.slice m 0 (n + 2) = Memory.slice m 0 n ++ [Memory.read m n, Memory.read m (n + 1)] := by
    simp [Memory.slice_succ]
  rw [hsplit, frameValid_append_iff, Prod.ext_iff]
  rfl

/-! ## The statements -/

/-- Settles O17: a byte that neither makes the header whole nor ends the frame, and a read after a write. -/
theorem binaryByteIsStored : Obligations.BinaryByteIsStored := by
  intro b src s ha hwf hm hlt hkind
  have hreceived := State.received_eq b src hm
  have hmode : (if s.cursor = 0 then b.getLsbD 7 else s.binMode) = true := by
    rcases hkind with ⟨hc, h7⟩ | ⟨hc, hb, -⟩
    · rw [if_pos hc, h7]
    · rw [if_neg hc, hb]
  have hinside : (if s.cursor = 0 then 0 else s.frameLen) = 0 ∧ s.cursor = 0 ∨
      (if s.cursor = 0 then 0 else s.frameLen) ≠ 0 ∧
        s.cursor + 1 ≠ (if s.cursor = 0 then 0 else s.frameLen) := by
    rcases hkind with ⟨hc, -⟩ | ⟨hc, -, hlen⟩
    · exact .inl ⟨if_pos hc, hc⟩
    · rw [if_neg hc]
      exact .inr hlen
  rw [hmode] at hreceived
  refine ⟨(s.received b src).withByte b, ?_, ?_, ?_⟩
  · rw [exec_byte_of_frame ha (by rw [hreceived]), hreceived]
    exact finish_next.2 (State.binaryByte_of_inside b hlt hinside)
  · rw [hreceived]
    exact State.withByte_read hwf b
  · rw [hreceived]
    rfl

/-- Settles O18: a header byte in the state that has received it. -/
theorem headerByteSetsFrameLength : Obligations.HeaderByteSetsFrameLength := by
  intro b src s ha hwf hb hm hlen hpos hlt h
  have hne : s.cursor ≠ 0 := by bv_omega
  have hreceived := State.received_of_later b src (.inl hne)
  obtain ⟨len, hbyte, hwhole, hshort⟩ := State.binaryByte_of_header (s := s.admitted) b hwf hlen hpos hlt
  refine ⟨{ s.admitted.withByte b with frameLen := len }, ?_, State.withByte_read (s := s.admitted) hwf b, hwhole,
    hshort, by rw [← hlen]; rfl⟩
  rw [exec_byte_of_frame ha (by rw [hreceived]; exact hb), hreceived]
  exact finish_next.2 hbyte

/-- Settles O19: the end of the frame with its last byte stored; the decode cannot fail, and a queue with room lets the
record be sequenced. -/
theorem binaryFrameCompletes : Obligations.BinaryFrameCompletes := by
  intro b src s hbusy hroom hslots hwf hb hm hne hlast h4 hle m len sums s0
  have hreceived := State.received_of_later b src (.inl hne)
  have hexec : exec (.byte b src) s = finish ((s.admitted.withByte b).completeBinary len) := by
    rw [exec_byte_of_frame (State.admits_of_room hroom hbusy) (by rw [hreceived]; exact hb), hreceived]
    exact congrArg finish (State.binaryByte_of_last (s := s.admitted) b hlast hle)
  have hvalid : frameValid (Memory.slice m 0 len) = true ↔
      Memory.read m (len - 2) = sums.1 ∧ Memory.read m (len - 1) = sums.2 := frameValid_slice_iff m (by omega)
  rw [hexec]
  refine ⟨fun hbad => ?_, fun h1 h2 => ?_⟩
  · exact finish_next.2 (State.completeBinary_of_invalid (s := s.admitted.withByte b) (by omega) hle
      (Bool.eq_false_iff.2 fun hv => hbad (hvalid.1 hv)))
  · have hdecode := binaryDecode_eq (m := m) (maxFrame_le_accLen s.params)
    generalize ({ off := _, bf1 := _, bf2 := _, tl := _, cmd := _ } : Work) = w at hdecode
    obtain ⟨t, ht⟩ := State.sequence_completes
      { s0 with acc := if w.bf1.getLsbD 15 then Memory.write m (len - 2) 0 else m } w.cmd hroom hslots
    refine ⟨w, t, hdecode, ht, finish_next.2 ?_⟩
    rw [State.completeBinary_of_valid (s := s.admitted.withByte b) (by omega) hle (hvalid.2 ⟨h1, h2⟩) hdecode,
      State.terminateText_eq]
    exact ht

end Sys2Proof.Machine
end

section
/-! # PEEK and POP as exact next states: the record reported, its text copied, and the record removed -/

namespace Sys2Proof.Machine

/-- The text of a record whose slice lies in acc (R64, R292). -/
theorem State.peekText_of_within {s : State} {r : Record} (h : r.textWithin s.params.accLen) :
    s.peekText r = .ok (keepIf r.hasText
      (some (Memory.slice s.acc (r.textStart.getD 0).toNat (r.textLen.getD 0).toNat))) := by
  cases htext : r.hasText with
  | false => exact if_neg (Bool.eq_false_iff.1 htext)
  | true =>
    rw [State.peekText, if_pos htext, memBytes_eq s.acc (h htext)]
    rfl

/-! ## PEEK -/

theorem execPeek_of_empty {s : State} (h : s.count = 0) : execPeek s = .next (s.consume.respond .empty) := if_pos h

theorem execPeek_of_peekText {s : State} {r : Record} {text : Option (List Byte)} (hc : s.count ≠ 0)
    (hr : s.slots[s.head]? = some r) (ht : s.peekText r = .ok text) :
    execPeek s = .next { s.consume with peekValid := true, response := .record r.reported text } := by
  have htaken : s.consume.peekText r = .ok text := ht
  simp [execPeek, hc, hr, htaken]

/-- Settles O10: the empty branch, and the report of the record at head, whose text is a slice of acc. -/
theorem peekReportsTheOldest : Obligations.PeekReportsTheOldest := by
  intro s
  refine ⟨fun hempty => execPeek_of_empty hempty, fun r hc hr hwithin => ?_⟩
  refine ⟨r.reported, _, execPeek_of_peekText hc hr (State.peekText_of_within hwithin), rfl, rfl, rfl, rfl, rfl, rfl,
    rfl, rfl, rfl, rfl, rfl, rfl, rfl, rfl, rfl, rfl, rfl, rfl, rfl, fun habsent => ?_, fun htext => ?_⟩
  · exact if_neg (Bool.eq_false_iff.1 habsent)
  · refine ⟨_, if_pos htext, Memory.slice_length .., fun k hk => ?_⟩
    rw [Memory.slice_length] at hk
    rw [Memory.slice_getElem?, if_pos hk]

/-! ## POP -/

theorem execPop_of_peeked {s : State} {r : Record} (hp : s.peekValid = true) (hr : s.slots[s.head]? = some r) :
    execPop s = .next { s.consume with
      head := (s.head + 1) % s.params.qcap, count := s.count - 1, peekValid := false
      payloadBusy := s.payloadBusy && !r.hasText, response := .ok } := by
  simp [execPop, hp, hr]

theorem execPop_of_not_peeked {s : State} (hp : s.peekValid = false) :
    execPop s = .next { s.consume with popFault := true, response := .fault } := if_neg (Bool.eq_false_iff.1 hp)

/-- The popped record ends the text's lifetime when it has the text (R293). -/
theorem busy_and_not_hasText (busy : Bool) (r : Record) :
    (busy && !r.hasText) = if r.pm1.getLsbD 15 then false else busy := by
  rw [Record.hasText]
  cases r.pm1.getLsbD 15 with
  | false => exact Bool.and_true busy
  | true => exact Bool.and_false busy

/-- Settles O11: the two branches of POP, told apart by `peekValid`. -/
theorem popRemovesThePeekedOrFaults : Obligations.PopRemovesThePeekedOrFaults := by
  refine fun s => ⟨fun r hp hr => ?_, fun hp => execPop_of_not_peeked hp⟩
  rw [← busy_and_not_hasText]
  exact execPop_of_peeked hp hr

end Sys2Proof.Machine
end

section
/-! # RESET as an exact next state: which registers it clears, and the STATUS words it leaves -/

namespace Sys2Proof.Machine

/-- The registers RESET writes take the values of R371; acc and the slots are not among them (R311). -/
theorem State.softReset_eq (s : State) :
    s.softReset = { State.reset with
      params := s.params, acc := s.acc, slots := s.slots, response := s.response, events := s.events, port := s.port } :=
  rfl

/-- STATUS reads only registers that RESET clears (R38, R311). -/
theorem State.softReset_status (s : State) :
    s.softReset.stat0 = 0 ∧ s.softReset.stat1 = 0 ∧ s.softReset.stat2 = 0 ∧ s.softReset.stat3 = 0 := by
  refine ⟨?_, s.softReset_lastAcceptedLine, s.softReset_pendingResendLine, ?_⟩
  · simp [State.stat0]
  · simp [State.stat3]

theorem exec_reset (s : State) : exec .reset s = .next (s.consume.softReset.respond .ok) := rfl

/-- Settles O7: the cleared registers of the consumed state, whose response and events are those of reset. -/
theorem resetTransaction : Obligations.ResetTransaction := by
  refine fun s => ⟨s.consume.softReset.respond .ok, exec_reset s, ?_, s.consume.softReset_status⟩
  rw [State.softReset_eq]
  rfl

end Sys2Proof.Machine
end

section
/-! # Progress: from a good state no transaction stops -/

namespace Sys2Proof.Machine

namespace State

/-! ## Sequencing and completion -/

/-- An admitted command finds a free slot, so that SEQ never stops (R245, R290). -/
theorem Steady.sequence_completes {s : State} (h : s.Steady) (ha : s.admits) (r : Record) :
    ∃ t, s.sequence r = .ok t :=
  s.sequence_completes r (Nat.lt_of_le_of_ne h.queue.count_le ha.1) h.queue.slots_length

/-- A line inside acc completes, whether it fails its validation or is sequenced (R269). -/
theorem Steady.completeAscii_completes {s : State} {n : Nat} (h : s.Steady) (ha : s.admits)
    (hn : n ≤ s.params.accLen) : ∃ t, s.completeAscii n = .ok t := by
  cases hk : asciiFailure s.cfgChecksumMandatory s.frameSrc (asciiDecode (Memory.slice s.acc 0 n)) with
  | some k => exact ⟨s.fail k, completeAscii_of_failure hn hk⟩
  | none =>
    rw [completeAscii_of_valid hn hk]
    exact h.sequence_completes ha _

/-- A frame inside acc completes: its checksum fails, or its decode cannot fail and its record is sequenced (R182,
R267). -/
theorem Steady.completeBinary_completes {s : State} {l : Nat} (h : s.Steady) (ha : s.admits) (h2 : 2 ≤ l)
    (hle : l ≤ s.params.accLen) : ∃ t, s.completeBinary l = .ok t := by
  cases hv : frameValid (Memory.slice s.acc 0 l) with
  | false => exact ⟨_, completeBinary_of_invalid h2 hle hv⟩
  | true =>
    obtain ⟨w, -, hw, -⟩ := binaryDecodeCannotFail s.acc s.params.accLen (maxFrame_le_accLen _)
    rw [completeBinary_of_valid h2 hle hv hw, terminateText_eq]
    exact State.sequence_completes _ w.cmd (Nat.lt_of_le_of_ne h.queue.count_le ha.1) h.queue.slots_length

/-! ## The branches of the intake -/

/-- The stored bytes of a line lie in acc (R9). -/
theorem LineReady.cursor_le_accLen {s : State} (h : s.LineReady) : s.cursor.toNat ≤ s.params.accLen :=
  h.cursor_le.trans (Nat.le_max_right ..)

theorem LineReady.endLine_completes {s : State} (h : s.LineReady) (ha : s.admits) : ∃ t, s.endLine = .ok t := by
  by_cases hc : s.cursor = 0
  · exact ⟨s, if_pos hc⟩
  · have hstart : ({ s with cursor := 0 } : State).Steady :=
      { h with queue := { h.queue with }, seq := { h.seq with } }
    rw [State.endLine, if_neg hc]
    exact hstart.completeAscii_completes ha h.cursor_le_accLen

/-- A byte of a line never stops, and one that is stored has room: the line has fewer than MAX_CMD_LEN (R271). -/
theorem LineReady.asciiByte_completes {s : State} (h : s.LineReady) (ha : s.admits) (b : Byte) :
    ∃ t, s.asciiByte b = .ok t := by
  by_cases hend : endsLine b = true ∧ (s.comment = true → endsComment b = true)
  · rw [asciiByte_of_terminator hend.1 hend.2]
    exact (h.setComment false).endLine_completes ha
  cases hm : s.comment with
  | true =>
    have he : endsComment b = false := Bool.eq_false_iff.2 fun he => hend ⟨by simp [endsLine, he], fun _ => he⟩
    exact ⟨s, asciiByte_of_dropped hm he⟩
  | false =>
    have he : endsLine b = false := Bool.eq_false_iff.2 fun he => hend ⟨he, by simp [hm]⟩
    by_cases hsemi : b = chSemicolon
    · exact ⟨s.startComment, hsemi ▸ asciiByte_of_semicolon hm⟩
    by_cases hmax : s.cursor.toNat = s.params.maxCmdLen
    · exact ⟨s.overflow, asciiByte_of_overflow hm he hsemi hmax⟩
    · have hroom : s.cursor.toNat < s.params.accLen :=
        (Nat.lt_of_le_of_ne h.cursor_le hmax).trans_le (Nat.le_max_right ..)
      exact ⟨s.withByte b, (asciiByte_of_stored hm he hsemi hmax).trans (storeByte_eq_withByte b hroom)⟩

theorem admits.learnSize {s : State} (ha : s.admits) : s.learnSize.admits := by
  rcases s.learnSize_cases with ⟨n, -, -, -, -, h⟩ | h <;> rw [h] <;> exact ha

theorem admits.classifyFirst {s : State} (ha : s.admits) (b : Byte) (src : Bool) : (s.classifyFirst b src).admits := by
  rcases s.classifyFirst_cases b src with ⟨-, -, h⟩ | ⟨-, h⟩ <;> rw [h] <;> exact ha

/-- The length of a frame leaves room for its checksum and fits acc (R123, R124). -/
theorem FrameStored.frameLen_bounds {s : State} (h : s.FrameStored) (hf : s.frameLen ≠ 0) :
    2 ≤ s.frameLen.toNat ∧ s.frameLen.toNat ≤ s.params.accLen := by
  obtain ⟨hlow, hhigh⟩ := fsSize_bounds (h.known hf).2
  exact ⟨(fsNeed_bounds _).1.trans hlow.le, hhigh.trans (maxFrame_le_accLen _)⟩

/-- A byte of a frame has room, and the frame it makes whole completes (R265, R267). -/
theorem FrameReady.binaryByte_completes {s : State} (h : s.FrameReady) (ha : s.admits) (b : Byte) :
    ∃ t, s.binaryByte b = .ok t := by
  have hroom : s.cursor.toNat < s.params.accLen := h.cursor_lt.trans_le (maxFrame_le_accLen _)
  have hstored : (s.withByte b).learnSize.FrameStored := h.stored (storeByte_eq_withByte b hroom)
  have hadmits : (s.withByte b).learnSize.admits := admits.learnSize (s := s.withByte b) ha
  rw [binaryByte_eq b hroom]
  by_cases hwhole : (s.withByte b).learnSize.frameLen ≠ 0 ∧
      (s.withByte b).learnSize.cursor = (s.withByte b).learnSize.frameLen
  · obtain ⟨h2, hle⟩ := hstored.frameLen_bounds hwhole.1
    rw [completeIfWhole_of_whole hwhole.1 hwhole.2]
    exact hstored.toSteady.completeBinary_completes hadmits h2 hle
  · exact ⟨_, if_neg hwhole⟩

/-- An admitted byte belongs to a frame or to a line, and stops in neither (R260). -/
theorem Inv.intake_completes {s : State} (h : s.Inv) (ha : s.admits) (b : Byte) (src : Bool) :
    ∃ t, s.intake b src = .ok t := by
  rw [State.intake]
  split
  next hm => exact (frameReady_classifyFirst h hm).binaryByte_completes (ha.classifyFirst b src) b
  next hm =>
    exact (lineReady_classifyFirst h (Bool.eq_false_iff.2 hm)).asciiByte_completes (ha.classifyFirst b src) b

/-! ## The transactions -/

/-- The oldest record stands in its slot, and is in the queue (R34). -/
theorem Inv.exists_oldest {s : State} (h : s.Inv) (hc : s.count ≠ 0) :
    ∃ r ∈ s.queue, s.slots[s.head]? = some r := by
  have hr : s.slots[s.head]? = some (s.slots[s.head]'(h.slots_length ▸ h.head_lt)) := List.getElem?_eq_getElem _
  refine ⟨_, ?_, hr⟩
  rw [queue_eq_cons hr (Nat.pos_of_ne_zero hc) h.head_lt]
  exact List.mem_cons_self

theorem Inv.byte_completes {s : State} (h : s.Inv) (b : Byte) (src : Bool) : Completes (.byte b src) s := by
  by_cases hfull : s.count = s.params.qcap
  · exact ⟨_, exec_byte_of_refusal b src (refusal_of_full hfull)⟩
  cases hbusy : s.payloadBusy with
  | true => exact ⟨_, exec_byte_of_refusal b src (refusal_of_busy hfull hbusy)⟩
  | false =>
    obtain ⟨t, ht⟩ := (h.taken .accepted).intake_completes ⟨hfull, hbusy⟩ b src
    exact ⟨t, (exec_byte_of_admits b src ⟨hfull, hbusy⟩).trans (finish_next.2 ht)⟩

/-- PEEK of a good state stops at neither the slot nor the text (R64, R292). -/
theorem Inv.peek_completes {s : State} (h : s.Inv) : Completes .peek s := by
  by_cases hc : s.count = 0
  · exact ⟨_, execPeek_of_empty hc⟩
  · obtain ⟨r, hmem, hr⟩ := h.exists_oldest hc
    exact ⟨_, execPeek_of_peekText hc hr (peekText_of_within (h.text_within r hmem))⟩

theorem Inv.pop_completes {s : State} (h : s.Inv) : Completes .pop s := by
  cases hp : s.peekValid with
  | false => exact ⟨_, execPop_of_not_peeked hp⟩
  | true =>
    obtain ⟨r, -, hr⟩ := h.exists_oldest (Nat.pos_iff_ne_zero.1 (h.peek_ok hp))
    exact ⟨_, execPop_of_peeked hp hr⟩

/-- None of the eight transactions stops in a good state. -/
theorem Inv.transaction_completes {s : State} (h : s.Inv) (w : Half) : Completes (decodeTransaction w) s := by
  rcases decodeTransaction_cases w with he | ⟨b, src, he⟩ | he | he | he | ⟨v, he⟩ | he | he <;> rw [he]
  · exact ⟨_, rfl⟩
  · exact h.byte_completes b src
  · exact h.peek_completes
  · exact h.pop_completes
  · exact ⟨_, exec_reset s⟩
  · exact ⟨_, rfl⟩
  · exact ⟨_, rfl⟩
  · exact ⟨_, rfl⟩

/-- The word a good state fetches has twelve bits (R81). -/
theorem Inv.fetch_word_lt {s : State} (h : s.Inv) : s.fetch.word.toNat < 4096 := by
  cases hp : s.port with
  | nil =>
    rw [fetch_nil hp]
    decide
  | cons p rest =>
    rw [fetch_cons hp]
    exact (h.port_ok p (hp ▸ List.mem_cons_self)).2

/-- The decoder rejects no word that a good state fetches (R80, R81). -/
theorem Inv.decode_fetch_eq {s : State} (h : s.Inv) : decode s.fetch = .ok (decodeTransaction s.fetch.word) := by
  have hfetch : s.fetch = ⟨.transaction, s.fetch.word⟩ := by rw [← h.fetch_space]
  exact (congrArg decode hfetch).trans (decode_transaction h.fetch_word_lt)

end State

/-- Settles O60: the word at the port is one of the eight transactions, and none of them stops. -/
theorem noGoodStateStops : Obligations.NoGoodStateStops := by
  intro s hs
  rw [step_eq_exec hs.decode_fetch_eq]
  exact hs.transaction_completes _

end Sys2Proof.Machine
end

section
/-! # The event list of every instruction has a shape of R335 -/

namespace Sys2Proof.Machine

/-- The four kinds of decode failure are reported as R336 and R337 say. -/
theorem failureReport_failureEvent {k : ErrorKind}
    (hk : k = .checksumMismatch ∨ k = .missingChecksum ∨ k = .fieldFormatError ∨ k = .missingRequiredField) :
    FailureReport (failureEvent k) := by
  rcases hk with rfl | rfl | rfl | rfl
  · exact .checksumMismatch
  · exact .missingChecksum
  · exact .fieldFormat
  · exact .missingField

namespace State

/-! ## What emits nothing -/

theorem push_events {s t : State} {r : Record} (h : s.push r = .ok t) : t.events = s.events := by
  obtain ⟨-, -, rfl⟩ := push_cases h
  rfl

theorem storeByte_events {s t : State} {b : Byte} (h : s.storeByte b = .ok t) : t.events = s.events := by
  obtain ⟨-, rfl⟩ := storeByte_cases h
  rfl

@[simp] theorem learnSize_events (s : State) : s.learnSize.events = s.events := by
  rcases s.learnSize_cases with ⟨n, -, -, -, -, h⟩ | h <;> rw [h]

@[simp] theorem terminateText_events (s : State) (w : Work) (l : Nat) : (s.terminateText w l).events = s.events := by
  rcases s.terminateText_cases w l with h | h <;> rw [h]

@[simp] theorem classifyFirst_events (s : State) (b : Byte) (src : Bool) :
    (s.classifyFirst b src).events = s.events := by
  rcases s.classifyFirst_cases b src with ⟨-, -, h⟩ | ⟨-, h⟩ <;> rw [h]
  rfl

/-! ## What a completed command emits, from an empty list -/

/-- A failure below the threshold asks for a resend, one at the threshold acknowledges (R240). -/
theorem fail_eventShape {s : State} {k : ErrorKind} (he : s.events = []) (hk : FailureReport (failureEvent k)) :
    EventShape (s.fail k).events := by
  rcases s.fail_cases k with ⟨-, h⟩ | ⟨-, h⟩ <;> rw [h]
  · rw [resend_events, countFailure_events, he]
    exact .failed _ _ hk
  · rw [forceAccept_events, countFailure_events, he]
    exact .forced _ _ hk

theorem lineReset_eventShape {s : State} (r : Record) (he : s.events = []) : EventShape (s.lineReset r).events := by
  rw [lineReset_events, he]
  exact .accepted _

/-- Each branch of SEQ emits its own list (R335): an acknowledgement, a resend request, or a skip. -/
theorem sequence_eventShape {s t : State} {r : Record} (he : s.events = []) (h : s.sequence r = .ok t) :
    EventShape t.events := by
  rcases sequence_cases h with ⟨-, rfl⟩ | ⟨-, -, u, hu, rfl⟩ | ⟨-, -, -, u, hu, rfl⟩ | ⟨-, -, -, -, rfl⟩ |
    ⟨-, -, -, -, rfl⟩
  · exact lineReset_eventShape r he
  · rw [emit_events, push_events hu, clearErrors_events, he]
    exact .accepted _
  · rw [emit_events, push_events hu, advanceTo_events, clearErrors_events, he]
    exact .accepted _
  · rw [gap_events, clearErrors_events, he]
    exact .gap _
  · rw [skip_events, clearErrors_events, he]
    exact .skipped _

theorem completeBinary_eventShape {s t : State} {l : Nat} (he : s.events = []) (h : s.completeBinary l = .ok t) :
    EventShape t.events := by
  obtain ⟨-, -, ⟨-, rfl⟩ | ⟨-, w, -, hw⟩⟩ := completeBinary_cases h
  · exact fail_eventShape he .checksumMismatch
  · exact sequence_eventShape (by rw [terminateText_events, leaveFrame_events, he]) hw

theorem completeAscii_eventShape {s t : State} {n : Nat} (he : s.events = []) (h : s.completeAscii n = .ok t) :
    EventShape t.events := by
  obtain ⟨-, ⟨k, hk, rfl⟩ | ⟨-, hq⟩⟩ := completeAscii_cases h
  · exact fail_eventShape he (failureReport_failureEvent (asciiFailure_kinds hk))
  · exact sequence_eventShape he hq

/-! ## The intake -/

/-- What emits nothing leaves the empty list. -/
theorem eventShape_of_silent {s : State} (he : s.events = []) : EventShape s.events := he ▸ .nothing

theorem endLine_eventShape {s t : State} (he : s.events = []) (h : s.endLine = .ok t) : EventShape t.events := by
  rcases endLine_cases h with ⟨-, rfl⟩ | ⟨-, h⟩
  · exact eventShape_of_silent he
  · exact completeAscii_eventShape (by exact he) h

theorem endComment_eventShape {s t : State} (he : s.events = []) (h : s.endComment = .ok t) : EventShape t.events :=
  endLine_eventShape (by exact he) h

theorem binaryByte_eventShape {s t : State} {b : Byte} (he : s.events = []) (h : s.binaryByte b = .ok t) :
    EventShape t.events := by
  obtain ⟨u, hu, hc⟩ := binaryByte_cases h
  have hstored : u.learnSize.events = [] := by rw [learnSize_events, storeByte_events hu, he]
  rcases hc with ⟨-, -, hc⟩ | ⟨-, rfl⟩
  · exact completeBinary_eventShape hstored hc
  · exact eventShape_of_silent hstored

theorem asciiByte_eventShape {s t : State} {b : Byte} (he : s.events = []) (h : s.asciiByte b = .ok t) :
    EventShape t.events := by
  rcases asciiByte_cases h with ⟨-, -, h⟩ | ⟨-, -, rfl⟩ | ⟨-, -, h⟩ | ⟨-, -, -, rfl⟩ | ⟨-, -, -, -, rfl⟩ |
    ⟨-, -, -, -, h⟩
  · exact endComment_eventShape he h
  · exact eventShape_of_silent he
  · exact endLine_eventShape he h
  · exact eventShape_of_silent he
  · exact fail_eventShape he .fieldFormat
  · exact eventShape_of_silent ((storeByte_events h).trans he)

theorem intake_eventShape {s t : State} {b : Byte} {src : Bool} (he : s.events = []) (h : s.intake b src = .ok t) :
    EventShape t.events := by
  have hfirst : (s.classifyFirst b src).events = [] := by rw [classifyFirst_events, he]
  rcases intake_cases h with ⟨-, h⟩ | ⟨-, h⟩
  · exact binaryByte_eventShape hfirst h
  · exact asciiByte_eventShape hfirst h

theorem hardTerminator_eventShape {s t : State} (he : s.events = []) (h : s.hardTerminator = .ok t) :
    EventShape t.events := by
  rcases hardTerminator_cases h with ⟨-, rfl⟩ | ⟨-, -, h⟩ | ⟨-, -, h⟩
  · exact eventShape_of_silent he
  · exact endComment_eventShape he h
  · exact endLine_eventShape he h

end State

/-- Settles O32: the list is empty when a word is taken, BYTE, the terminator rows and M110 complete at most one
command, and no other instruction emits. -/
theorem eventListsHaveTheirShapes : Obligations.EventListsHaveTheirShapes := by
  intro i s t h
  cases i with
  | byte b src =>
    rcases execByte_next h with ⟨-, rfl⟩ | ⟨-, -, rfl⟩ | ⟨-, -, h⟩
    · exact .nothing
    · exact .nothing
    · exact State.intake_eventShape rfl h
  | termNul | termLf | termCr => exact State.hardTerminator_eventShape s.consume_events (finish_next.1 h)
  | termColon =>
    rcases execTermColon_next h with ⟨-, rfl⟩ | ⟨-, -, h⟩
    · exact .nothing
    · exact State.endLine_eventShape s.consume_events h
  | m110 =>
    rcases execM110_next h with ⟨-, rfl⟩ | ⟨-, rfl⟩
    · exact State.lineReset_eventShape _ s.consume_events
    · exact .nothing
  | _ =>
    exact State.eventShape_of_silent
      (exec_events_nil h (by simp) (by simp) (by simp) (by simp) (by simp) (by simp))

end Sys2Proof.Machine
end

section
/-! # Power-on: the reset values -/

namespace Sys2Proof.Machine

/-- Power-on and the RESET transaction give the same register values (R370), so RESET changes nothing after power-on. -/
theorem State.softReset_reset : State.reset.softReset = State.reset := rfl

/-- Settles O6: each register of R371 holds its default, and the STATUS words are those RESET leaves, as RESET does
not change the power-on state. -/
theorem resetValues : Obligations.ResetValues := by
  have hstatus := State.reset.softReset_status
  rw [State.softReset_reset] at hstatus
  exact ⟨rfl, rfl, rfl, rfl, rfl, rfl, rfl, rfl, rfl, rfl, rfl, rfl, rfl, rfl, rfl, rfl, hstatus⟩

end Sys2Proof.Machine
end
